-- ==== Sys2Proof/Word.lean ====
section
/-! DEFINITION. The word types of the machine (00_scope.md R6, R8) and the names of its 5-bit register numbers. -/

namespace Sys2Proof

/-- A word, 32 bits: a general register, an address, an instruction (R6 `WORD`, `XLEN`, `ALEN`, `ILEN`). -/
abbrev Word := BitVec 32

/-- A byte, the addressable unit of memory (R6 `BYTE`, R51). -/
abbrev Byte := BitVec 8

/-- A halfword (R6 `HALF`, R51). -/
abbrev Half := BitVec 16

/-- A double-word (R51); also the pattern of a double-precision number (R322). -/
abbrev DWord := BitVec 64

/-- A register number as a 5-bit field holds it (R82): of a general register, of a coprocessor register, or of a
floating-point register, by the place it stands in. -/
abbrev Reg := BitVec 5

/-- A coprocessor number, 0 to 3 (R83). -/
abbrev CopNum := BitVec 2

end Sys2Proof
end

