-- ==== Sys2Proof/Config.lean ====
section
/-! DEFINITION. What the spec leaves open: the parameters of 00_scope.md R7 as plain data that a state carries, and the
free values (`draw` of R9, the answers of the host of R376, the uninterpreted parameter functions) as constants without
a body. -/

namespace Sys2Proof

/-- Byte order of memory (20_memory.md R52). -/
inductive Endian where
  | little
  | big
deriving DecidableEq, Repr

/-- Class of a byte address (20_memory.md R58): program text, data, or not allocated (`none` there). -/
inductive AddrClass where
  | text
  | data
  | unmapped
deriving DecidableEq, Repr

/-- What an allocated region holds (20_memory.md R58). -/
inductive RegionKind where
  | text
  | data
deriving DecidableEq, Repr

/-- A run of `size` allocated byte addresses that starts at `base` (log 3). -/
structure Region where
  base : Nat
  size : Nat
  kind : RegionKind
deriving DecidableEq, Repr

/-- `BRANCH_BASE` (44_branch_jump.md R215): the address a branch offset counts from. -/
inductive BranchBase where
  | atBranch
  | afterBranch
deriving DecidableEq, Repr

/-- `SDIV` on a negative operand (40_arithmetic_logical.md R134): the default of the spec, or a function of which
nothing is known. -/
inductive SignedDivision where
  | truncating
  | hostDefined
deriving DecidableEq, Repr

/-- `FP` (48_floating_point.md R321): the default of the spec, or functions of which nothing is known. -/
inductive FloatArithmetic where
  | ieee754
  | hostDefined
deriving DecidableEq, Repr

/-- `FP_CVT_W` (48_floating_point.md R349). -/
inductive Rounding where
  | nearestEven
  | towardZero
  | towardMinusInfinity
  | towardPlusInfinity
deriving DecidableEq, Repr

/-- `STATUS_RESTORE` (49_exception_trap_syscall.md R370): not given, or a function of which nothing is known. -/
inductive StatusRestore where
  | notSupplied
  | supplied
deriving DecidableEq, Repr

/-- The four floating-point operations that round (R321). -/
inductive FloatOp where
  | add
  | sub
  | mul
  | div
deriving DecidableEq, Repr

/-- The three floating-point relations (R354). -/
inductive FloatRel where
  | eq
  | le
  | lt
deriving DecidableEq, Repr

/-- The open parameters of 00_scope.md R7. A state carries them and no step changes them (log 1). `PSEUDO_LEN` is an
argument of a pseudoinstruction's step (log 10) and `TRAP_DELIVERY` is decided by the spec (R404). -/
structure Config where
  /-- `ENDIAN` (R52). -/
  endian : Endian
  /-- `MEMMAP` (R58): the first region that contains an address gives its class. -/
  memmap : List Region
  /-- `ENTRY` (R430). -/
  entry : Word
  /-- `BRANCH_BASE` (R215). -/
  branchBase : BranchBase
  /-- `SDIV` (R134). -/
  sdiv : SignedDivision
  /-- `FP` (R321). -/
  fp : FloatArithmetic
  /-- `FP_CVT_W` (R349). -/
  cvtW : Rounding
  /-- `STATUS_RESTORE` (R370). -/
  statusRestore : StatusRestore
deriving DecidableEq, Repr

namespace Config

/-- `draw(8)` (R9), by the number of values drawn so far (log 13). -/
opaque draw8 : Nat → Byte

/-- `draw(32)` (R9), by the number of values drawn so far (log 13). -/
opaque draw32 : Nat → Word

/-- `draw(64)` (R9), by the number of values drawn so far (log 13). -/
opaque draw64 : Nat → DWord

/-- The byte an allocated address holds before the image or a store defines it: unspecified (R40, log 16). -/
opaque initialByte : Word → Byte

/-- `STATUS_RESTORE` where it is supplied (R370, log 9). -/
opaque restoredStatus : Word → Word

/-- `SDIV` on a negative operand where it is not the default: quotient and remainder (R134, log 6). -/
opaque signedDivision : Word → Word → Word × Word

/-- `FP.add32` and its three kin where `FP` is not the default (R321, log 7). -/
opaque hostArith32 : FloatOp → Word → Word → Word

/-- `FP.add64` and its three kin where `FP` is not the default (R321, log 7). -/
opaque hostArith64 : FloatOp → DWord → DWord → DWord

/-- `FP.eq32`, `FP.le32`, `FP.lt32` where `FP` is not the default (R321, log 7). -/
opaque hostCompare32 : FloatRel → Word → Word → Bool

/-- `FP.eq64`, `FP.le64`, `FP.lt64` where `FP` is not the default (R321, log 7). -/
opaque hostCompare64 : FloatRel → DWord → DWord → Bool

/-- `FP.cvt_d_s` where `FP` is not the default (R321, R333, log 7). -/
opaque hostSingleToDouble : Word → DWord

/-- `FP.cvt_d_w` where `FP` is not the default (R321, R334, log 7). -/
opaque hostIntToDouble : Word → DWord

/-- `FP.cvt_s_d` where `FP` is not the default (R321, R335, log 7). -/
opaque hostDoubleToSingle : DWord → Word

/-- `FP.cvt_s_w` where `FP` is not the default (R321, R336, log 7). -/
opaque hostIntToSingle : Word → Word

/-- The host's answer to services 5, 6 and 12 when the run supplied none (R376, log 11). -/
opaque hostWord : Nat → Word

/-- The host's answer to service 7 when the run supplied none (R376, log 11). -/
opaque hostDouble : Nat → DWord

/-- The line the host gives service 8 when the run supplied none (R376, R385, log 11). -/
opaque hostLine : Nat → List Byte

end Config

end Sys2Proof
end

