-- ==== Sys2Proof/Syntax.lean ====
section
/-! DEFINITION. The instructions: the 92 machine instructions, one constructor for each row of spec/opcode_table.json,
and beside them the pseudoinstructions of 30_encoding.md R110 and the statements that R109 makes pseudoinstructions. -/

namespace Sys2Proof

/-- A machine instruction: its mnemonic and the value of each field of its word (30_encoding.md R81, R82). Operands stand
in the order of the syntax line, a coprocessor number `z` (R83) first. `ign` of the constant shifts is the field in bits
25:21 that the decoder does not look at (R107): no meaning reads it. -/
inductive Instr where
  -- Arithmetic and logical (40_arithmetic_logical.md)
  /-- `add Rd, Rs, Rt` (R123). -/
  | add (rd : Reg) (rs : Reg) (rt : Reg)
  /-- `addu Rd, Rs, Rt` (R124). -/
  | addu (rd : Reg) (rs : Reg) (rt : Reg)
  /-- `addi Rt, Rs, Imm` (R125). -/
  | addi (rt : Reg) (rs : Reg) (imm : BitVec 16)
  /-- `addiu Rt, Rs, Imm` (R126). -/
  | addiu (rt : Reg) (rs : Reg) (imm : BitVec 16)
  /-- `sub Rd, Rs, Rt` (R127). -/
  | sub (rd : Reg) (rs : Reg) (rt : Reg)
  /-- `subu Rd, Rs, Rt` (R128). -/
  | subu (rd : Reg) (rs : Reg) (rt : Reg)
  /-- `mult Rs, Rt` (R132). -/
  | mult (rs : Reg) (rt : Reg)
  /-- `multu Rs, Rt` (R133). -/
  | multu (rs : Reg) (rt : Reg)
  /-- `div Rs, Rt` (R135). -/
  | div (rs : Reg) (rt : Reg)
  /-- `divu Rs, Rt` (R136). -/
  | divu (rs : Reg) (rt : Reg)
  /-- `and Rd, Rs, Rt` (R141). -/
  | and (rd : Reg) (rs : Reg) (rt : Reg)
  /-- `andi Rd, Rs, Imm` (R142). -/
  | andi (rd : Reg) (rs : Reg) (imm : BitVec 16)
  /-- `nor Rd, Rs, Rt` (R143). -/
  | nor (rd : Reg) (rs : Reg) (rt : Reg)
  /-- `or Rd, Rs, Rt` (R145). -/
  | or (rd : Reg) (rs : Reg) (rt : Reg)
  /-- `ori Rt, Rs, Imm` (R146). -/
  | ori (rt : Reg) (rs : Reg) (imm : BitVec 16)
  /-- `xor Rd, Rs, Rt` (R147). -/
  | xor (rd : Reg) (rs : Reg) (rt : Reg)
  /-- `xori Rt, Rs, Imm` (R148). -/
  | xori (rt : Reg) (rs : Reg) (imm : BitVec 16)
  -- Shifts (41_shift_rotate.md)
  /-- `sll Rd, Rt, Sa` (R170). -/
  | sll (rd : Reg) (rt : Reg) (sa : BitVec 5) (ign : BitVec 5)
  /-- `sllv Rd, Rt, Rs` (R171). -/
  | sllv (rd : Reg) (rt : Reg) (rs : Reg)
  /-- `sra Rd, Rt, Sa` (R172). -/
  | sra (rd : Reg) (rt : Reg) (sa : BitVec 5) (ign : BitVec 5)
  /-- `srav Rd, Rt, Rs` (R173). -/
  | srav (rd : Reg) (rt : Reg) (rs : Reg)
  /-- `srl Rd, Rt, Sa` (R174). -/
  | srl (rd : Reg) (rt : Reg) (sa : BitVec 5) (ign : BitVec 5)
  /-- `srlv Rd, Rt, Rs` (R175). -/
  | srlv (rd : Reg) (rt : Reg) (rs : Reg)
  -- Constants (42_constant.md)
  /-- `lui Rt, Imm` (R191). -/
  | lui (rt : Reg) (imm : BitVec 16)
  -- Comparison (43_comparison.md)
  /-- `slt Rd, Rs, Rt` (R203). -/
  | slt (rd : Reg) (rs : Reg) (rt : Reg)
  /-- `sltu Rd, Rs, Rt` (R204). -/
  | sltu (rd : Reg) (rs : Reg) (rt : Reg)
  /-- `slti Rt, Rs, Imm` (R205). -/
  | slti (rt : Reg) (rs : Reg) (imm : BitVec 16)
  /-- `sltiu Rt, Rs, Imm` (R206). -/
  | sltiu (rt : Reg) (rs : Reg) (imm : BitVec 16)
  -- Branches and jumps (44_branch_jump.md)
  /-- `bczt Offset` (R219). -/
  | bczt (z : CopNum) (offset : BitVec 16)
  /-- `bczf Offset` (R220). -/
  | bczf (z : CopNum) (offset : BitVec 16)
  /-- `beq Rs, Rt, Offset` (R221). -/
  | beq (rs : Reg) (rt : Reg) (offset : BitVec 16)
  /-- `bgez Rs, Offset` (R225). -/
  | bgez (rs : Reg) (offset : BitVec 16)
  /-- `bgezal Rs, Offset` (R226). -/
  | bgezal (rs : Reg) (offset : BitVec 16)
  /-- `bgtz Rs, Offset` (R229). -/
  | bgtz (rs : Reg) (offset : BitVec 16)
  /-- `blez Rs, Offset` (R232). -/
  | blez (rs : Reg) (offset : BitVec 16)
  /-- `bltzal Rs, Offset` (R233). -/
  | bltzal (rs : Reg) (offset : BitVec 16)
  /-- `bltz Rs, Offset` (R236). -/
  | bltz (rs : Reg) (offset : BitVec 16)
  /-- `bne Rs, Rt, Offset` (R237). -/
  | bne (rs : Reg) (rt : Reg) (offset : BitVec 16)
  /-- `j Target` (R239). -/
  | j (target : BitVec 26)
  /-- `jal Target` (R240). -/
  | jal (target : BitVec 26)
  /-- `jalr Rd, Rs` (R241). -/
  | jalr (rd : Reg) (rs : Reg)
  /-- `jr Rs` (R242). -/
  | jr (rs : Reg)
  -- Loads (45_load.md)
  /-- `lb Rt, Offset(Base)` (R257). -/
  | lb (rt : Reg) (base : Reg) (offset : BitVec 16)
  /-- `lbu Rt, Offset(Base)` (R258). -/
  | lbu (rt : Reg) (base : Reg) (offset : BitVec 16)
  /-- `lh Rt, Offset(Base)` (R260). -/
  | lh (rt : Reg) (base : Reg) (offset : BitVec 16)
  /-- `lhu Rt, Offset(Base)` (R261). -/
  | lhu (rt : Reg) (base : Reg) (offset : BitVec 16)
  /-- `lw Rt, Offset(Base)` (R262). -/
  | lw (rt : Reg) (base : Reg) (offset : BitVec 16)
  /-- `lwcz Rt, Offset(Base)` (R263). -/
  | lwcz (z : CopNum) (rt : Reg) (base : Reg) (offset : BitVec 16)
  /-- `lwl Rt, Offset(Base)` (R265). -/
  | lwl (rt : Reg) (base : Reg) (offset : BitVec 16)
  /-- `lwr Rt, Offset(Base)` (R266). -/
  | lwr (rt : Reg) (base : Reg) (offset : BitVec 16)
  -- Stores (46_store.md)
  /-- `sb Rt, Offset(Base)` (R280). -/
  | sb (rt : Reg) (base : Reg) (offset : BitVec 16)
  /-- `sh Rt, Offset(Base)` (R282). -/
  | sh (rt : Reg) (base : Reg) (offset : BitVec 16)
  /-- `sw Rt, Offset(Base)` (R283). -/
  | sw (rt : Reg) (base : Reg) (offset : BitVec 16)
  /-- `swcz Rt, Offset(Base)` (R284). -/
  | swcz (z : CopNum) (rt : Reg) (base : Reg) (offset : BitVec 16)
  /-- `swl Rt, Offset(Base)` (R286). -/
  | swl (rt : Reg) (base : Reg) (offset : BitVec 16)
  /-- `swr Rt, Offset(Base)` (R287). -/
  | swr (rt : Reg) (base : Reg) (offset : BitVec 16)
  -- Data movement (47_data_movement.md)
  /-- `mfhi Rd` (R301). -/
  | mfhi (rd : Reg)
  /-- `mflo Rd` (R302). -/
  | mflo (rd : Reg)
  /-- `mthi Rs` (R303). -/
  | mthi (rs : Reg)
  /-- `mtlo Rs` (R304). -/
  | mtlo (rs : Reg)
  /-- `mfcz Rt, Rd` (R305). -/
  | mfcz (z : CopNum) (rt : Reg) (rd : Reg)
  /-- `mtcz Rt, Rd` (R307). -/
  | mtcz (z : CopNum) (rt : Reg) (rd : Reg)
  -- Floating point (48_floating_point.md)
  /-- `abs.d Fd, Fs` (R323). -/
  | absD (fd : Reg) (fs : Reg)
  /-- `abs.s Fd, Fs` (R324). -/
  | absS (fd : Reg) (fs : Reg)
  /-- `add.d Fd, Fs, Ft` (R325). -/
  | addD (fd : Reg) (fs : Reg) (ft : Reg)
  /-- `add.s Fd, Fs, Ft` (R326). -/
  | addS (fd : Reg) (fs : Reg) (ft : Reg)
  /-- `c.eq.d Fs, Ft` (R327). -/
  | cEqD (fs : Reg) (ft : Reg)
  /-- `c.eq.s Fs, Ft` (R328). -/
  | cEqS (fs : Reg) (ft : Reg)
  /-- `c.le.d Fs, Ft` (R329). -/
  | cLeD (fs : Reg) (ft : Reg)
  /-- `c.le.s Fs, Ft` (R330). -/
  | cLeS (fs : Reg) (ft : Reg)
  /-- `c.lt.d Fs, Ft` (R331). -/
  | cLtD (fs : Reg) (ft : Reg)
  /-- `c.lt.s Fs, Ft` (R332). -/
  | cLtS (fs : Reg) (ft : Reg)
  /-- `cvt.d.s Fd, Fs` (R333). -/
  | cvtDS (fd : Reg) (fs : Reg)
  /-- `cvt.d.w Fd, Fs` (R334). -/
  | cvtDW (fd : Reg) (fs : Reg)
  /-- `cvt.s.d Fd, Fs` (R335). -/
  | cvtSD (fd : Reg) (fs : Reg)
  /-- `cvt.s.w Fd, Fs` (R336). -/
  | cvtSW (fd : Reg) (fs : Reg)
  /-- `cvt.w.d Fd, Fs` (R337). -/
  | cvtWD (fd : Reg) (fs : Reg)
  /-- `cvt.w.s Fd, Fs` (R338). -/
  | cvtWS (fd : Reg) (fs : Reg)
  /-- `div.d Fd, Fs, Ft` (R339). -/
  | divD (fd : Reg) (fs : Reg) (ft : Reg)
  /-- `div.s Fd, Fs, Ft` (R340). -/
  | divS (fd : Reg) (fs : Reg) (ft : Reg)
  /-- `mov.d Fd, Fs` (R343). -/
  | movD (fd : Reg) (fs : Reg)
  /-- `mov.s Fd, Fs` (R344). -/
  | movS (fd : Reg) (fs : Reg)
  /-- `mul.d Fd, Fs, Ft` (R345). -/
  | mulD (fd : Reg) (fs : Reg) (ft : Reg)
  /-- `mul.s Fd, Fs, Ft` (R346). -/
  | mulS (fd : Reg) (fs : Reg) (ft : Reg)
  /-- `neg.d Fd, Fs` (R347). -/
  | negD (fd : Reg) (fs : Reg)
  /-- `neg.s Fd, Fs` (R348). -/
  | negS (fd : Reg) (fs : Reg)
  /-- `sub.d Fd, Fs, Ft` (R352). -/
  | subD (fd : Reg) (fs : Reg) (ft : Reg)
  /-- `sub.s Fd, Fs, Ft` (R353). -/
  | subS (fd : Reg) (fs : Reg) (ft : Reg)
  -- Exceptions and services (49_exception_trap_syscall.md)
  /-- `rfe` (R370). -/
  | rfe
  /-- `syscall` (R371). -/
  | syscall
  /-- `break n` (R372). -/
  | brk (code : BitVec 20)
  /-- `nop` (R373). -/
  | nop
deriving DecidableEq, Repr

/-- `Src2` (40_arithmetic_logical.md R121): a register or a constant. -/
inductive Src2 where
  | reg (r : Reg)
  | const (c : Int)
deriving DecidableEq, Repr

/-- An `address` operand (45_load.md R255) once the assembler has resolved its labels: a value, or a displacement and a
base register. -/
inductive Address where
  | absolute (value : Int)
  | indexed (offset : Int) (base : Reg)
deriving DecidableEq, Repr

/-- The relations of the comparison and branch statements (43_comparison.md R195, 44_branch_jump.md R244): a name that
ends in `u` compares as unsigned. -/
inductive Relation where
  | eq | ne | ge | geu | gt | gtu | le | leu | lt | ltu
deriving DecidableEq, Repr

/-- `abs`, `neg`, `negu`, `not`, `move` (R122, R139, R140, R144, R300). -/
inductive UnaryOp where
  | abs | neg | negu | not | move
deriving DecidableEq, Repr

/-- The multiply, divide and remainder pseudoinstructions (R129, R130, R131, R137, R138, R149, R150). -/
inductive MulDivOp where
  | mul | mulo | mulou | div | divu | rem | remu
deriving DecidableEq, Repr

/-- The machine operations whose general form with a constant can be a pseudoinstruction (30_encoding.md R109). -/
inductive AluOp where
  | add | addu | sub | subu | and | or | xor | nor | sllv | srlv | srav
deriving DecidableEq, Repr

/-- The machine multiply and divide operations, for the same reason (30_encoding.md R109). -/
inductive HiLoOp where
  | mult | multu | div | divu
deriving DecidableEq, Repr

/-- The plain loads (45_load.md R257, R258, R260, R261, R262). -/
inductive LoadKind where
  | byte | byteUnsigned | half | halfUnsigned | word
deriving DecidableEq, Repr

/-- The plain stores (46_store.md R280, R282, R283). -/
inductive StoreKind where
  | byte | half | word
deriving DecidableEq, Repr

/-- Which end of the register a partial-word access moves (45_load.md R264): left is the most significant end. -/
inductive Side where
  | left
  | right
deriving DecidableEq, Repr

/-- A pseudoinstruction (30_encoding.md R110), or a statement in general form that 30_encoding.md R109, 44_branch_jump.md
R244 and 45_load.md R255 make one. A `label` is the address it names. -/
inductive Pseudo where
  /-- `abs`, `neg`, `negu`, `not`, `move`, each `Rdest, Rsrc`. -/
  | unary (op : UnaryOp) (rdest rsrc : Reg)
  /-- `mul`, `mulo`, `mulou`, `div`, `divu`, `rem`, `remu`, each `Rdest, Rsrc1, Src2`. -/
  | mulDiv (op : MulDivOp) (rdest rsrc1 : Reg) (src2 : Src2)
  /-- `rol Rdest, Rsrc1, Src2` (R176). -/
  | rol (rdest rsrc1 : Reg) (src2 : Src2)
  /-- `ror Rdest, Rsrc1, Src2` (R177). -/
  | ror (rdest rsrc1 : Reg) (src2 : Src2)
  /-- `li Rdest, imm` (R190). -/
  | li (rdest : Reg) (imm : Int)
  /-- `seq`, `sge`, `sgeu`, `sgt`, `sgtu`, `sle`, `sleu`, `sne` (R196 to R202, R207); with `lt`, `ltu` the general
  form of `slt`, `sltu` with a constant that does not fit (R109). -/
  | set (rel : Relation) (rdest rsrc1 : Reg) (src2 : Src2)
  /-- `b label` (R218). -/
  | b (label : Word)
  /-- `beqz Rsrc, label` (R222). -/
  | beqz (rsrc : Reg) (label : Word)
  /-- `bnez Rsrc, label` (R238). -/
  | bnez (rsrc : Reg) (label : Word)
  /-- `bge`, `bgeu`, `bgt`, `bgtu`, `ble`, `bleu`, `blt`, `bltu` (R223, R224, R227, R228, R230, R231, R234, R235); with
  `eq`, `ne` the forms of `beq`, `bne` with a constant (R244). -/
  | branch (rel : Relation) (rsrc1 : Reg) (src2 : Src2) (label : Word)
  /-- `la Rdest, address` (R256). -/
  | la (rdest : Reg) (address : Address)
  /-- `ld Rdest, address` (R259). -/
  | ld (rdest : Reg) (address : Address)
  /-- `sd Rsrc, address` (R281). -/
  | sd (rsrc : Reg) (address : Address)
  /-- `ulh Rdest, address` (R267). -/
  | ulh (rdest : Reg) (address : Address)
  /-- `ulhu Rdest, address` (R268). -/
  | ulhu (rdest : Reg) (address : Address)
  /-- `ulw Rdest, address` (R269). -/
  | ulw (rdest : Reg) (address : Address)
  /-- `ush Rsrc, address` (R288). -/
  | ush (rsrc : Reg) (address : Address)
  /-- `usw Rsrc, address` (R289). -/
  | usw (rsrc : Reg) (address : Address)
  /-- `mfc1.d Rdest, FRsrc1` (R306). -/
  | mfc1D (rdest frsrc1 : Reg)
  /-- `l.d FRdest, address` (R341). -/
  | lD (frdest : Reg) (address : Address)
  /-- `l.s FRdest, address` (R342). -/
  | lS (frdest : Reg) (address : Address)
  /-- `s.d FRdest, address` (R350). -/
  | sD (frdest : Reg) (address : Address)
  /-- `s.s FRdest, address` (R351). -/
  | sS (frdest : Reg) (address : Address)
  /-- A general form `add Rd, Rs, c` and its kin whose constant has no immediate partner or does not fit (R109). -/
  | generalAlu (op : AluOp) (rdest rsrc1 : Reg) (c : Int)
  /-- `mult`, `multu`, two-operand `div` and `divu` with a constant (R109). -/
  | generalHiLo (op : HiLoOp) (rsrc1 : Reg) (c : Int)
  /-- A plain load whose `address` is not put in one word (R255, log 40). -/
  | generalLoad (kind : LoadKind) (rdest : Reg) (address : Address)
  /-- `lwl`, `lwr` with such an `address` (R255). -/
  | generalLoadPartial (side : Side) (rdest : Reg) (address : Address)
  /-- `lwcz` with such an `address` (R255). -/
  | generalLoadCop (z : CopNum) (rt : Reg) (address : Address)
  /-- A plain store with such an `address` (R255). -/
  | generalStore (kind : StoreKind) (rsrc : Reg) (address : Address)
  /-- `swl`, `swr` with such an `address` (R255). -/
  | generalStorePartial (side : Side) (rsrc : Reg) (address : Address)
  /-- `swcz` with such an `address` (R255). -/
  | generalStoreCop (z : CopNum) (rt : Reg) (address : Address)
deriving DecidableEq, Repr

/-- What an assembled program is made of (30_encoding.md R108): a machine instruction, one word, or a pseudoinstruction
and its length `PSEUDO_LEN` in words (log 10). -/
inductive Statement where
  | machine (i : Instr)
  | pseudo (len : Nat) (p : Pseudo)
deriving DecidableEq, Repr

end Sys2Proof
end

