-- ==== Sys2Proof/WellFormed.lean ====
section
/-! DEFINITION. Which terms of the syntax stand for something the assembler emits. -/

namespace Sys2Proof

/-- Every field of a machine instruction has the width of its place in the word (30_encoding.md R81), so one thing is left
to check: the word of `sll $0, $0, 0` with an ignored field of 0 is the word of `nop` (R100, R373), and `nop` is what it
decodes to. -/
def Instr.wellFormed (i : Instr) : Bool :=
  i != .sll 0 0 0 0

/-- A constant the assembler accepts (92_eei_decisions.md D19): it lies in `[-2^31, 2^32 - 1]`. -/
def constantInRange (c : Int) : Bool :=
  decide (-2147483648 ≤ c) && decide (c ≤ 4294967295)

/-- A `Src2` whose constant is in range (R121). -/
def Src2.wellFormed : Src2 → Bool
  | .reg _ => true
  | .const c => constantInRange c

/-- An `address` whose constant is in range (R255, D19). -/
def Address.wellFormed : Address → Bool
  | .absolute value => constantInRange value
  | .indexed offset _ => constantInRange offset

/-- A pseudoinstruction whose constants are in range (30_encoding.md R109, D19). The operand forms that a step refuses
(60_exceptions.md R406) are not shut out here. -/
def Pseudo.wellFormed : Pseudo → Bool
  | .unary _ _ _ | .b _ | .beqz _ _ | .bnez _ _ | .mfc1D _ _ => true
  | .mulDiv _ _ _ c | .rol _ _ c | .ror _ _ c | .set _ _ _ c | .branch _ _ c _ => c.wellFormed
  | .li _ c | .generalAlu _ _ _ c | .generalHiLo _ _ c => constantInRange c
  | .la _ a | .ld _ a | .sd _ a | .ulh _ a | .ulhu _ a | .ulw _ a | .ush _ a | .usw _ a | .lD _ a | .lS _ a | .sD _ a
  | .sS _ a | .generalLoad _ _ a | .generalLoadPartial _ _ a | .generalLoadCop _ _ a | .generalStore _ _ a
  | .generalStorePartial _ _ a | .generalStoreCop _ _ a => a.wellFormed

/-- A statement is well formed if its instruction is; a pseudoinstruction occupies at least one word. -/
def Statement.wellFormed : Statement → Bool
  | .machine i => i.wellFormed
  | .pseudo len p => decide (1 ≤ len) && p.wellFormed

end Sys2Proof
end

