-- ==== Sys2Proof/Decode.lean ====
section
/-! DEFINITION. The decoder of 30_encoding.md R100 to R107, the encoder, the opcode table as a list of rows, and the bytes
of an instruction in memory. -/

namespace Sys2Proof

/-! ## Fields (30_encoding.md R80, R81) -/

/-- Bits 31:26, the first-level opcode of every format. -/
def fieldOp (w : Word) : BitVec 6 := w.extractLsb' 26 6

/-- Bits 25:21: `Rs`, `Base`, `sub` or `fmt`. -/
def fieldRs (w : Word) : BitVec 5 := w.extractLsb' 21 5

/-- Bits 20:16: `Rt` or `Ft`. -/
def fieldRt (w : Word) : BitVec 5 := w.extractLsb' 16 5

/-- Bits 15:11: `Rd` or `Fs`. -/
def fieldRd (w : Word) : BitVec 5 := w.extractLsb' 11 5

/-- Bits 10:6: `Sa` or `Fd`. -/
def fieldSa (w : Word) : BitVec 5 := w.extractLsb' 6 5

/-- Bits 5:0: `funct`. -/
def fieldFunct (w : Word) : BitVec 6 := w.extractLsb' 0 6

/-- Bits 15:0: `Imm` or `Offset`. -/
def fieldImm (w : Word) : BitVec 16 := w.extractLsb' 0 16

/-- Bits 25:0: `Target`. -/
def fieldTarget (w : Word) : BitVec 26 := w.extractLsb' 0 26

/-- Bits 25:6: `code`. -/
def fieldCode (w : Word) : BitVec 20 := w.extractLsb' 6 20

/-- Bits 27:26: the coprocessor number `z` (R83). -/
def fieldZ (w : Word) : CopNum := w.extractLsb' 26 2

/-! ## The decoder -/

/-- Why a decoder gives no instruction. -/
inductive DecodeError where
  /-- The word matches no row of the table (R106). -/
  | reserved (w : Word)
  /-- Fewer than four bytes (R80: every instruction is one word). -/
  | truncated
deriving DecidableEq, Repr

/-- R102: `op` = 0, by `funct`, with the fields that must be 0. -/
def decodeSpecial (w : Word) : Option Instr :=
  let rs := fieldRs w
  let rt := fieldRt w
  let rd := fieldRd w
  let sa := fieldSa w
  match fieldFunct w with
  | 0x00#6 => if w = 0#32 then some .nop else some (.sll rd rt sa rs)
  | 0x02#6 => some (.srl rd rt sa rs)
  | 0x03#6 => some (.sra rd rt sa rs)
  | 0x04#6 => if sa = 0#5 then some (.sllv rd rt rs) else none
  | 0x06#6 => if sa = 0#5 then some (.srlv rd rt rs) else none
  | 0x07#6 => if sa = 0#5 then some (.srav rd rt rs) else none
  | 0x08#6 => if rt = 0#5 ∧ rd = 0#5 ∧ sa = 0#5 then some (.jr rs) else none
  | 0x09#6 => if rt = 0#5 ∧ sa = 0#5 then some (.jalr rd rs) else none
  | 0x0c#6 => if fieldCode w = 0#20 then some .syscall else none
  | 0x0d#6 => some (.brk (fieldCode w))
  | 0x10#6 => if rs = 0#5 ∧ rt = 0#5 ∧ sa = 0#5 then some (.mfhi rd) else none
  | 0x11#6 => if rt = 0#5 ∧ rd = 0#5 ∧ sa = 0#5 then some (.mthi rs) else none
  | 0x12#6 => if rs = 0#5 ∧ rt = 0#5 ∧ sa = 0#5 then some (.mflo rd) else none
  | 0x13#6 => if rt = 0#5 ∧ rd = 0#5 ∧ sa = 0#5 then some (.mtlo rs) else none
  | 0x18#6 => if rd = 0#5 ∧ sa = 0#5 then some (.mult rs rt) else none
  | 0x19#6 => if rd = 0#5 ∧ sa = 0#5 then some (.multu rs rt) else none
  | 0x1a#6 => if rd = 0#5 ∧ sa = 0#5 then some (.div rs rt) else none
  | 0x1b#6 => if rd = 0#5 ∧ sa = 0#5 then some (.divu rs rt) else none
  | 0x20#6 => if sa = 0#5 then some (.add rd rs rt) else none
  | 0x21#6 => if sa = 0#5 then some (.addu rd rs rt) else none
  | 0x22#6 => if sa = 0#5 then some (.sub rd rs rt) else none
  | 0x23#6 => if sa = 0#5 then some (.subu rd rs rt) else none
  | 0x24#6 => if sa = 0#5 then some (.and rd rs rt) else none
  | 0x25#6 => if sa = 0#5 then some (.or rd rs rt) else none
  | 0x26#6 => if sa = 0#5 then some (.xor rd rs rt) else none
  | 0x27#6 => if sa = 0#5 then some (.nor rd rs rt) else none
  | 0x2a#6 => if sa = 0#5 then some (.slt rd rs rt) else none
  | 0x2b#6 => if sa = 0#5 then some (.sltu rd rs rt) else none
  | _ => none

/-- R103: `op` = 1, by the `Rt` field. -/
def decodeRegimm (w : Word) : Option Instr :=
  match fieldRt w with
  | 0x00#5 => some (.bltz (fieldRs w) (fieldImm w))
  | 0x01#5 => some (.bgez (fieldRs w) (fieldImm w))
  | 0x10#5 => some (.bltzal (fieldRs w) (fieldImm w))
  | 0x11#5 => some (.bgezal (fieldRs w) (fieldImm w))
  | _ => none

/-- R105: `op` = 0x11, `fmt` = 0x10 (single), by `funct`; and `rfe`, the word `0x46000020` (R104). -/
def decodeSingle (w : Word) : Option Instr :=
  let ft := fieldRt w
  let fs := fieldRd w
  let fd := fieldSa w
  match fieldFunct w with
  | 0x00#6 => some (.addS fd fs ft)
  | 0x01#6 => some (.subS fd fs ft)
  | 0x02#6 => some (.mulS fd fs ft)
  | 0x03#6 => some (.divS fd fs ft)
  | 0x05#6 => if ft = 0#5 then some (.absS fd fs) else none
  | 0x06#6 => if ft = 0#5 then some (.movS fd fs) else none
  | 0x07#6 => if ft = 0#5 then some (.negS fd fs) else none
  | 0x20#6 => if ft = 0#5 ∧ fs = 0#5 ∧ fd = 0#5 then some .rfe else none
  | 0x21#6 => if ft = 0#5 then some (.cvtDS fd fs) else none
  | 0x24#6 => if ft = 0#5 then some (.cvtWS fd fs) else none
  | 0x32#6 => if fd = 0#5 then some (.cEqS fs ft) else none
  | 0x3c#6 => if fd = 0#5 then some (.cLtS fs ft) else none
  | 0x3e#6 => if fd = 0#5 then some (.cLeS fs ft) else none
  | _ => none

/-- R105: `op` = 0x11, `fmt` = 0x11 (double), by `funct`. -/
def decodeDouble (w : Word) : Option Instr :=
  let ft := fieldRt w
  let fs := fieldRd w
  let fd := fieldSa w
  match fieldFunct w with
  | 0x00#6 => some (.addD fd fs ft)
  | 0x01#6 => some (.subD fd fs ft)
  | 0x02#6 => some (.mulD fd fs ft)
  | 0x03#6 => some (.divD fd fs ft)
  | 0x05#6 => if ft = 0#5 then some (.absD fd fs) else none
  | 0x06#6 => if ft = 0#5 then some (.movD fd fs) else none
  | 0x07#6 => if ft = 0#5 then some (.negD fd fs) else none
  | 0x20#6 => if ft = 0#5 then some (.cvtSD fd fs) else none
  | 0x24#6 => if ft = 0#5 then some (.cvtWD fd fs) else none
  | 0x32#6 => if fd = 0#5 then some (.cEqD fs ft) else none
  | 0x3c#6 => if fd = 0#5 then some (.cLtD fs ft) else none
  | 0x3e#6 => if fd = 0#5 then some (.cLeD fs ft) else none
  | _ => none

/-- R105: `op` = 0x11, `fmt` = 0x14 (32-bit integer), by `funct`. -/
def decodeInteger (w : Word) : Option Instr :=
  let fs := fieldRd w
  let fd := fieldSa w
  match fieldFunct w with
  | 0x20#6 => if fieldRt w = 0#5 then some (.cvtSW fd fs) else none
  | 0x21#6 => if fieldRt w = 0#5 then some (.cvtDW fd fs) else none
  | _ => none

/-- R104: `op` = `0x10 + z`, by the `sub` field. -/
def decodeCop (w : Word) : Option Instr :=
  let z := fieldZ w
  match fieldRs w with
  | 0x00#5 => if fieldSa w = 0#5 ∧ fieldFunct w = 0#6 then some (.mfcz z (fieldRt w) (fieldRd w)) else none
  | 0x04#5 => if fieldSa w = 0#5 ∧ fieldFunct w = 0#6 then some (.mtcz z (fieldRt w) (fieldRd w)) else none
  | 0x08#5 =>
    match fieldRt w with
    | 0x00#5 => some (.bczf z (fieldImm w))
    | 0x01#5 => some (.bczt z (fieldImm w))
    | _ => none
  | 0x10#5 => if z = 1#2 then decodeSingle w else none
  | 0x11#5 => if z = 1#2 then decodeDouble w else none
  | 0x14#5 => if z = 1#2 then decodeInteger w else none
  | _ => none

/-- R101: the first level, by `op`. -/
def decodeFields (w : Word) : Option Instr :=
  let rs := fieldRs w
  let rt := fieldRt w
  let imm := fieldImm w
  match fieldOp w with
  | 0x00#6 => decodeSpecial w
  | 0x01#6 => decodeRegimm w
  | 0x02#6 => some (.j (fieldTarget w))
  | 0x03#6 => some (.jal (fieldTarget w))
  | 0x04#6 => some (.beq rs rt imm)
  | 0x05#6 => some (.bne rs rt imm)
  | 0x06#6 => if rt = 0#5 then some (.blez rs imm) else none
  | 0x07#6 => if rt = 0#5 then some (.bgtz rs imm) else none
  | 0x08#6 => some (.addi rt rs imm)
  | 0x09#6 => some (.addiu rt rs imm)
  | 0x0a#6 => some (.slti rt rs imm)
  | 0x0b#6 => some (.sltiu rt rs imm)
  | 0x0c#6 => some (.andi rt rs imm)
  | 0x0d#6 => some (.ori rt rs imm)
  | 0x0e#6 => some (.xori rt rs imm)
  | 0x0f#6 => if rs = 0#5 then some (.lui rt imm) else none
  | 0x10#6 => decodeCop w
  | 0x11#6 => decodeCop w
  | 0x12#6 => decodeCop w
  | 0x13#6 => decodeCop w
  | 0x20#6 => some (.lb rt rs imm)
  | 0x21#6 => some (.lh rt rs imm)
  | 0x22#6 => some (.lwl rt rs imm)
  | 0x23#6 => some (.lw rt rs imm)
  | 0x24#6 => some (.lbu rt rs imm)
  | 0x25#6 => some (.lhu rt rs imm)
  | 0x26#6 => some (.lwr rt rs imm)
  | 0x28#6 => some (.sb rt rs imm)
  | 0x29#6 => some (.sh rt rs imm)
  | 0x2a#6 => some (.swl rt rs imm)
  | 0x2b#6 => some (.sw rt rs imm)
  | 0x2e#6 => some (.swr rt rs imm)
  | 0x30#6 => some (.lwcz (fieldZ w) rt rs imm)
  | 0x31#6 => some (.lwcz (fieldZ w) rt rs imm)
  | 0x32#6 => some (.lwcz (fieldZ w) rt rs imm)
  | 0x33#6 => some (.lwcz (fieldZ w) rt rs imm)
  | 0x38#6 => some (.swcz (fieldZ w) rt rs imm)
  | 0x39#6 => some (.swcz (fieldZ w) rt rs imm)
  | 0x3a#6 => some (.swcz (fieldZ w) rt rs imm)
  | 0x3b#6 => some (.swcz (fieldZ w) rt rs imm)
  | _ => none

/-- The decoder of R100, total on words: an instruction, or a reserved encoding (R106). -/
def decodeWord (w : Word) : Except DecodeError Instr :=
  match decodeFields w with
  | some i => .ok i
  | none => .error (.reserved w)

/-! ## Bytes of a word (20_memory.md R52, R53, R54) -/

/-- The word whose bytes stand at rising addresses in the order given (R53). -/
def wordOfBytes (e : Endian) (b0 b1 b2 b3 : Byte) : Word :=
  match e with
  | .little => (b3 ++ b2 ++ b1 ++ b0).cast rfl
  | .big => (b0 ++ b1 ++ b2 ++ b3).cast rfl

/-- The halfword whose bytes stand at rising addresses in the order given (R53). -/
def halfOfBytes (e : Endian) (b0 b1 : Byte) : Half :=
  match e with
  | .little => (b1 ++ b0).cast rfl
  | .big => (b0 ++ b1).cast rfl

/-- Byte `i` of a word, `B0` the least significant (45_load.md R264). -/
def byteOfWord (v : Word) (i : Nat) : Byte := v.extractLsb' (8 * i) 8

/-- The bytes of a word at rising addresses (R54). -/
def bytesOfWord (e : Endian) (v : Word) : List Byte :=
  match e with
  | .little => [byteOfWord v 0, byteOfWord v 1, byteOfWord v 2, byteOfWord v 3]
  | .big => [byteOfWord v 3, byteOfWord v 2, byteOfWord v 1, byteOfWord v 0]

/-- The bytes of a halfword at rising addresses (R54). -/
def bytesOfHalf (e : Endian) (v : Half) : List Byte :=
  match e with
  | .little => [v.extractLsb' 0 8, v.extractLsb' 8 8]
  | .big => [v.extractLsb' 8 8, v.extractLsb' 0 8]

/-- The decoder on the bytes of memory: the instruction of the first four, and the bytes after it. -/
def decodeBytes (e : Endian) (bytes : List Byte) : Except DecodeError (Instr × List Byte) :=
  match bytes with
  | b0 :: b1 :: b2 :: b3 :: rest =>
    match decodeWord (wordOfBytes e b0 b1 b2 b3) with
    | .ok i => .ok (i, rest)
    | .error r => .error r
  | _ => .error .truncated

/-- The instruction of a table word: its bits laid out as bytes, every bit from `nbits` on 0, and decoded. Every
instruction is one word, so either byte order gives the same answer; `little` is used. -/
def decodeTableWord (nbits w : Nat) : Option Instr :=
  match decodeBytes .little (bytesOfWord .little (BitVec.ofNat 32 (w % 2 ^ nbits))) with
  | .ok (i, _) => some i
  | .error _ => none

/-! ## The encoder -/

/-- The six-field layout of `R3`, `MD`, `MF`, `MT`, `CP`, `FR`, `FC` and `RFE` (R81). -/
def wordR (op : BitVec 6) (a b c d : BitVec 5) (funct : BitVec 6) : Word :=
  (op ++ a ++ b ++ c ++ d ++ funct).cast rfl

/-- The layout of format `I` (R81). -/
def wordI (op : BitVec 6) (a b : BitVec 5) (imm : BitVec 16) : Word := (op ++ a ++ b ++ imm).cast rfl

/-- The layout of format `J` (R81). -/
def wordJ (op : BitVec 6) (target : BitVec 26) : Word := (op ++ target).cast rfl

/-- The layout of format `SY` (R81). -/
def wordS (op : BitVec 6) (code : BitVec 20) (funct : BitVec 6) : Word := (op ++ code ++ funct).cast rfl

/-- An opcode whose low two bits are a coprocessor number (R83). -/
def opZ (high : BitVec 4) (z : CopNum) : BitVec 6 := (high ++ z).cast rfl

/-- The word of a machine instruction (30_encoding.md R81 to R83, R94, R95; the `Encoding` part of its rule). -/
def encode (i : Instr) : Word :=
  match i with
  | .add rd rs rt => wordR 0x00 rs rt rd 0x00 0x20
  | .addu rd rs rt => wordR 0x00 rs rt rd 0x00 0x21
  | .addi rt rs imm => wordI 0x08 rs rt imm
  | .addiu rt rs imm => wordI 0x09 rs rt imm
  | .sub rd rs rt => wordR 0x00 rs rt rd 0x00 0x22
  | .subu rd rs rt => wordR 0x00 rs rt rd 0x00 0x23
  | .mult rs rt => wordR 0x00 rs rt 0x00 0x00 0x18
  | .multu rs rt => wordR 0x00 rs rt 0x00 0x00 0x19
  | .div rs rt => wordR 0x00 rs rt 0x00 0x00 0x1a
  | .divu rs rt => wordR 0x00 rs rt 0x00 0x00 0x1b
  | .and rd rs rt => wordR 0x00 rs rt rd 0x00 0x24
  | .andi rd rs imm => wordI 0x0c rs rd imm
  | .nor rd rs rt => wordR 0x00 rs rt rd 0x00 0x27
  | .or rd rs rt => wordR 0x00 rs rt rd 0x00 0x25
  | .ori rt rs imm => wordI 0x0d rs rt imm
  | .xor rd rs rt => wordR 0x00 rs rt rd 0x00 0x26
  | .xori rt rs imm => wordI 0x0e rs rt imm
  | .sll rd rt sa ign => wordR 0x00 ign rt rd sa 0x00
  | .sllv rd rt rs => wordR 0x00 rs rt rd 0x00 0x04
  | .sra rd rt sa ign => wordR 0x00 ign rt rd sa 0x03
  | .srav rd rt rs => wordR 0x00 rs rt rd 0x00 0x07
  | .srl rd rt sa ign => wordR 0x00 ign rt rd sa 0x02
  | .srlv rd rt rs => wordR 0x00 rs rt rd 0x00 0x06
  | .lui rt imm => wordI 0x0f 0x00 rt imm
  | .slt rd rs rt => wordR 0x00 rs rt rd 0x00 0x2a
  | .sltu rd rs rt => wordR 0x00 rs rt rd 0x00 0x2b
  | .slti rt rs imm => wordI 0x0a rs rt imm
  | .sltiu rt rs imm => wordI 0x0b rs rt imm
  | .bczt z offset => wordI (opZ 0b0100 z) 0x08 0x01 offset
  | .bczf z offset => wordI (opZ 0b0100 z) 0x08 0x00 offset
  | .beq rs rt offset => wordI 0x04 rs rt offset
  | .bgez rs offset => wordI 0x01 rs 0x01 offset
  | .bgezal rs offset => wordI 0x01 rs 0x11 offset
  | .bgtz rs offset => wordI 0x07 rs 0x00 offset
  | .blez rs offset => wordI 0x06 rs 0x00 offset
  | .bltzal rs offset => wordI 0x01 rs 0x10 offset
  | .bltz rs offset => wordI 0x01 rs 0x00 offset
  | .bne rs rt offset => wordI 0x05 rs rt offset
  | .j target => wordJ 0x02 target
  | .jal target => wordJ 0x03 target
  | .jalr rd rs => wordR 0x00 rs 0x00 rd 0x00 0x09
  | .jr rs => wordR 0x00 rs 0x00 0x00 0x00 0x08
  | .lb rt base offset => wordI 0x20 base rt offset
  | .lbu rt base offset => wordI 0x24 base rt offset
  | .lh rt base offset => wordI 0x21 base rt offset
  | .lhu rt base offset => wordI 0x25 base rt offset
  | .lw rt base offset => wordI 0x23 base rt offset
  | .lwcz z rt base offset => wordI (opZ 0b1100 z) base rt offset
  | .lwl rt base offset => wordI 0x22 base rt offset
  | .lwr rt base offset => wordI 0x26 base rt offset
  | .sb rt base offset => wordI 0x28 base rt offset
  | .sh rt base offset => wordI 0x29 base rt offset
  | .sw rt base offset => wordI 0x2b base rt offset
  | .swcz z rt base offset => wordI (opZ 0b1110 z) base rt offset
  | .swl rt base offset => wordI 0x2a base rt offset
  | .swr rt base offset => wordI 0x2e base rt offset
  | .mfhi rd => wordR 0x00 0x00 0x00 rd 0x00 0x10
  | .mflo rd => wordR 0x00 0x00 0x00 rd 0x00 0x12
  | .mthi rs => wordR 0x00 rs 0x00 0x00 0x00 0x11
  | .mtlo rs => wordR 0x00 rs 0x00 0x00 0x00 0x13
  | .mfcz z rt rd => wordR (opZ 0b0100 z) 0x00 rt rd 0x00 0x00
  | .mtcz z rt rd => wordR (opZ 0b0100 z) 0x04 rt rd 0x00 0x00
  | .absD fd fs => wordR 0x11 0x11 0x00 fs fd 0x05
  | .absS fd fs => wordR 0x11 0x10 0x00 fs fd 0x05
  | .addD fd fs ft => wordR 0x11 0x11 ft fs fd 0x00
  | .addS fd fs ft => wordR 0x11 0x10 ft fs fd 0x00
  | .cEqD fs ft => wordR 0x11 0x11 ft fs 0x00 0x32
  | .cEqS fs ft => wordR 0x11 0x10 ft fs 0x00 0x32
  | .cLeD fs ft => wordR 0x11 0x11 ft fs 0x00 0x3e
  | .cLeS fs ft => wordR 0x11 0x10 ft fs 0x00 0x3e
  | .cLtD fs ft => wordR 0x11 0x11 ft fs 0x00 0x3c
  | .cLtS fs ft => wordR 0x11 0x10 ft fs 0x00 0x3c
  | .cvtDS fd fs => wordR 0x11 0x10 0x00 fs fd 0x21
  | .cvtDW fd fs => wordR 0x11 0x14 0x00 fs fd 0x21
  | .cvtSD fd fs => wordR 0x11 0x11 0x00 fs fd 0x20
  | .cvtSW fd fs => wordR 0x11 0x14 0x00 fs fd 0x20
  | .cvtWD fd fs => wordR 0x11 0x11 0x00 fs fd 0x24
  | .cvtWS fd fs => wordR 0x11 0x10 0x00 fs fd 0x24
  | .divD fd fs ft => wordR 0x11 0x11 ft fs fd 0x03
  | .divS fd fs ft => wordR 0x11 0x10 ft fs fd 0x03
  | .movD fd fs => wordR 0x11 0x11 0x00 fs fd 0x06
  | .movS fd fs => wordR 0x11 0x10 0x00 fs fd 0x06
  | .mulD fd fs ft => wordR 0x11 0x11 ft fs fd 0x02
  | .mulS fd fs ft => wordR 0x11 0x10 ft fs fd 0x02
  | .negD fd fs => wordR 0x11 0x11 0x00 fs fd 0x07
  | .negS fd fs => wordR 0x11 0x10 0x00 fs fd 0x07
  | .subD fd fs ft => wordR 0x11 0x11 ft fs fd 0x01
  | .subS fd fs ft => wordR 0x11 0x10 ft fs fd 0x01
  | .rfe => wordR 0x11 0x10 0x00 0x00 0x00 0x20
  | .syscall => wordS 0x00 0x0 0x0c
  | .brk code => wordS 0x00 code 0x0d
  | .nop => wordR 0x00 0x00 0x00 0x00 0x00 0x00

/-- The bytes of a machine instruction at rising addresses (20_memory.md R60). -/
def encodeBytes (e : Endian) (i : Instr) : List Byte := bytesOfWord e (encode i)

/-! ## The opcode table (30_encoding.md R100) -/

/-- A row of spec/opcode_table.json: a word `w` is the row's when `w &&& mask = pattern` (there `match`). -/
structure OpcodeRow where
  mnemonic : String
  pattern : Word
  mask : Word
deriving DecidableEq, Repr

/-- The word matches the row. -/
def OpcodeRow.accepts (r : OpcodeRow) (w : Word) : Bool := w &&& r.mask == r.pattern

/-- Rows 1 to 23 of spec/opcode_table.json. -/
def opcodeRows1 : List OpcodeRow := [
  ⟨"add", 0x00000020, 0xFC0007FF⟩,
  ⟨"addu", 0x00000021, 0xFC0007FF⟩,
  ⟨"addi", 0x20000000, 0xFC000000⟩,
  ⟨"addiu", 0x24000000, 0xFC000000⟩,
  ⟨"sub", 0x00000022, 0xFC0007FF⟩,
  ⟨"subu", 0x00000023, 0xFC0007FF⟩,
  ⟨"mult", 0x00000018, 0xFC00FFFF⟩,
  ⟨"multu", 0x00000019, 0xFC00FFFF⟩,
  ⟨"div", 0x0000001A, 0xFC00FFFF⟩,
  ⟨"divu", 0x0000001B, 0xFC00FFFF⟩,
  ⟨"and", 0x00000024, 0xFC0007FF⟩,
  ⟨"andi", 0x30000000, 0xFC000000⟩,
  ⟨"nor", 0x00000027, 0xFC0007FF⟩,
  ⟨"or", 0x00000025, 0xFC0007FF⟩,
  ⟨"ori", 0x34000000, 0xFC000000⟩,
  ⟨"xor", 0x00000026, 0xFC0007FF⟩,
  ⟨"xori", 0x38000000, 0xFC000000⟩,
  ⟨"sll", 0x00000000, 0xFC00003F⟩,
  ⟨"sllv", 0x00000004, 0xFC0007FF⟩,
  ⟨"sra", 0x00000003, 0xFC00003F⟩,
  ⟨"srav", 0x00000007, 0xFC0007FF⟩,
  ⟨"srl", 0x00000002, 0xFC00003F⟩,
  ⟨"srlv", 0x00000006, 0xFC0007FF⟩]

/-- Rows 24 to 46 of spec/opcode_table.json. -/
def opcodeRows2 : List OpcodeRow := [
  ⟨"lui", 0x3C000000, 0xFFE00000⟩,
  ⟨"slt", 0x0000002A, 0xFC0007FF⟩,
  ⟨"sltu", 0x0000002B, 0xFC0007FF⟩,
  ⟨"slti", 0x28000000, 0xFC000000⟩,
  ⟨"sltiu", 0x2C000000, 0xFC000000⟩,
  ⟨"bczt", 0x41010000, 0xF3FF0000⟩,
  ⟨"bczf", 0x41000000, 0xF3FF0000⟩,
  ⟨"beq", 0x10000000, 0xFC000000⟩,
  ⟨"bgez", 0x04010000, 0xFC1F0000⟩,
  ⟨"bgezal", 0x04110000, 0xFC1F0000⟩,
  ⟨"bgtz", 0x1C000000, 0xFC1F0000⟩,
  ⟨"blez", 0x18000000, 0xFC1F0000⟩,
  ⟨"bltzal", 0x04100000, 0xFC1F0000⟩,
  ⟨"bltz", 0x04000000, 0xFC1F0000⟩,
  ⟨"bne", 0x14000000, 0xFC000000⟩,
  ⟨"j", 0x08000000, 0xFC000000⟩,
  ⟨"jal", 0x0C000000, 0xFC000000⟩,
  ⟨"jalr", 0x00000009, 0xFC1F07FF⟩,
  ⟨"jr", 0x00000008, 0xFC1FFFFF⟩,
  ⟨"lb", 0x80000000, 0xFC000000⟩,
  ⟨"lbu", 0x90000000, 0xFC000000⟩,
  ⟨"lh", 0x84000000, 0xFC000000⟩,
  ⟨"lhu", 0x94000000, 0xFC000000⟩]

/-- Rows 47 to 69 of spec/opcode_table.json. -/
def opcodeRows3 : List OpcodeRow := [
  ⟨"lw", 0x8C000000, 0xFC000000⟩,
  ⟨"lwcz", 0xC0000000, 0xF0000000⟩,
  ⟨"lwl", 0x88000000, 0xFC000000⟩,
  ⟨"lwr", 0x98000000, 0xFC000000⟩,
  ⟨"sb", 0xA0000000, 0xFC000000⟩,
  ⟨"sh", 0xA4000000, 0xFC000000⟩,
  ⟨"sw", 0xAC000000, 0xFC000000⟩,
  ⟨"swcz", 0xE0000000, 0xF0000000⟩,
  ⟨"swl", 0xA8000000, 0xFC000000⟩,
  ⟨"swr", 0xB8000000, 0xFC000000⟩,
  ⟨"mfhi", 0x00000010, 0xFFFF07FF⟩,
  ⟨"mflo", 0x00000012, 0xFFFF07FF⟩,
  ⟨"mthi", 0x00000011, 0xFC1FFFFF⟩,
  ⟨"mtlo", 0x00000013, 0xFC1FFFFF⟩,
  ⟨"mfcz", 0x40000000, 0xF3E007FF⟩,
  ⟨"mtcz", 0x40800000, 0xF3E007FF⟩,
  ⟨"abs.d", 0x46200005, 0xFFFF003F⟩,
  ⟨"abs.s", 0x46000005, 0xFFFF003F⟩,
  ⟨"add.d", 0x46200000, 0xFFE0003F⟩,
  ⟨"add.s", 0x46000000, 0xFFE0003F⟩,
  ⟨"c.eq.d", 0x46200032, 0xFFE007FF⟩,
  ⟨"c.eq.s", 0x46000032, 0xFFE007FF⟩,
  ⟨"c.le.d", 0x4620003E, 0xFFE007FF⟩]

/-- Rows 70 to 92 of spec/opcode_table.json. -/
def opcodeRows4 : List OpcodeRow := [
  ⟨"c.le.s", 0x4600003E, 0xFFE007FF⟩,
  ⟨"c.lt.d", 0x4620003C, 0xFFE007FF⟩,
  ⟨"c.lt.s", 0x4600003C, 0xFFE007FF⟩,
  ⟨"cvt.d.s", 0x46000021, 0xFFFF003F⟩,
  ⟨"cvt.d.w", 0x46800021, 0xFFFF003F⟩,
  ⟨"cvt.s.d", 0x46200020, 0xFFFF003F⟩,
  ⟨"cvt.s.w", 0x46800020, 0xFFFF003F⟩,
  ⟨"cvt.w.d", 0x46200024, 0xFFFF003F⟩,
  ⟨"cvt.w.s", 0x46000024, 0xFFFF003F⟩,
  ⟨"div.d", 0x46200003, 0xFFE0003F⟩,
  ⟨"div.s", 0x46000003, 0xFFE0003F⟩,
  ⟨"mov.d", 0x46200006, 0xFFFF003F⟩,
  ⟨"mov.s", 0x46000006, 0xFFFF003F⟩,
  ⟨"mul.d", 0x46200002, 0xFFE0003F⟩,
  ⟨"mul.s", 0x46000002, 0xFFE0003F⟩,
  ⟨"neg.d", 0x46200007, 0xFFFF003F⟩,
  ⟨"neg.s", 0x46000007, 0xFFFF003F⟩,
  ⟨"sub.d", 0x46200001, 0xFFE0003F⟩,
  ⟨"sub.s", 0x46000001, 0xFFE0003F⟩,
  ⟨"rfe", 0x46000020, 0xFFFFFFFF⟩,
  ⟨"syscall", 0x0000000C, 0xFFFFFFFF⟩,
  ⟨"break", 0x0000000D, 0xFC00003F⟩,
  ⟨"nop", 0x00000000, 0xFFFFFFFF⟩]

/-- The whole of spec/opcode_table.json, in its order. -/
def opcodeTable : List OpcodeRow := opcodeRows1 ++ opcodeRows2 ++ opcodeRows3 ++ opcodeRows4

/-- The row of spec/opcode_table.json an instruction belongs to. -/
def rowOf (i : Instr) : OpcodeRow :=
  match i with
  | .add _ _ _ => ⟨"add", 0x00000020, 0xFC0007FF⟩
  | .addu _ _ _ => ⟨"addu", 0x00000021, 0xFC0007FF⟩
  | .addi _ _ _ => ⟨"addi", 0x20000000, 0xFC000000⟩
  | .addiu _ _ _ => ⟨"addiu", 0x24000000, 0xFC000000⟩
  | .sub _ _ _ => ⟨"sub", 0x00000022, 0xFC0007FF⟩
  | .subu _ _ _ => ⟨"subu", 0x00000023, 0xFC0007FF⟩
  | .mult _ _ => ⟨"mult", 0x00000018, 0xFC00FFFF⟩
  | .multu _ _ => ⟨"multu", 0x00000019, 0xFC00FFFF⟩
  | .div _ _ => ⟨"div", 0x0000001A, 0xFC00FFFF⟩
  | .divu _ _ => ⟨"divu", 0x0000001B, 0xFC00FFFF⟩
  | .and _ _ _ => ⟨"and", 0x00000024, 0xFC0007FF⟩
  | .andi _ _ _ => ⟨"andi", 0x30000000, 0xFC000000⟩
  | .nor _ _ _ => ⟨"nor", 0x00000027, 0xFC0007FF⟩
  | .or _ _ _ => ⟨"or", 0x00000025, 0xFC0007FF⟩
  | .ori _ _ _ => ⟨"ori", 0x34000000, 0xFC000000⟩
  | .xor _ _ _ => ⟨"xor", 0x00000026, 0xFC0007FF⟩
  | .xori _ _ _ => ⟨"xori", 0x38000000, 0xFC000000⟩
  | .sll _ _ _ _ => ⟨"sll", 0x00000000, 0xFC00003F⟩
  | .sllv _ _ _ => ⟨"sllv", 0x00000004, 0xFC0007FF⟩
  | .sra _ _ _ _ => ⟨"sra", 0x00000003, 0xFC00003F⟩
  | .srav _ _ _ => ⟨"srav", 0x00000007, 0xFC0007FF⟩
  | .srl _ _ _ _ => ⟨"srl", 0x00000002, 0xFC00003F⟩
  | .srlv _ _ _ => ⟨"srlv", 0x00000006, 0xFC0007FF⟩
  | .lui _ _ => ⟨"lui", 0x3C000000, 0xFFE00000⟩
  | .slt _ _ _ => ⟨"slt", 0x0000002A, 0xFC0007FF⟩
  | .sltu _ _ _ => ⟨"sltu", 0x0000002B, 0xFC0007FF⟩
  | .slti _ _ _ => ⟨"slti", 0x28000000, 0xFC000000⟩
  | .sltiu _ _ _ => ⟨"sltiu", 0x2C000000, 0xFC000000⟩
  | .bczt _ _ => ⟨"bczt", 0x41010000, 0xF3FF0000⟩
  | .bczf _ _ => ⟨"bczf", 0x41000000, 0xF3FF0000⟩
  | .beq _ _ _ => ⟨"beq", 0x10000000, 0xFC000000⟩
  | .bgez _ _ => ⟨"bgez", 0x04010000, 0xFC1F0000⟩
  | .bgezal _ _ => ⟨"bgezal", 0x04110000, 0xFC1F0000⟩
  | .bgtz _ _ => ⟨"bgtz", 0x1C000000, 0xFC1F0000⟩
  | .blez _ _ => ⟨"blez", 0x18000000, 0xFC1F0000⟩
  | .bltzal _ _ => ⟨"bltzal", 0x04100000, 0xFC1F0000⟩
  | .bltz _ _ => ⟨"bltz", 0x04000000, 0xFC1F0000⟩
  | .bne _ _ _ => ⟨"bne", 0x14000000, 0xFC000000⟩
  | .j _ => ⟨"j", 0x08000000, 0xFC000000⟩
  | .jal _ => ⟨"jal", 0x0C000000, 0xFC000000⟩
  | .jalr _ _ => ⟨"jalr", 0x00000009, 0xFC1F07FF⟩
  | .jr _ => ⟨"jr", 0x00000008, 0xFC1FFFFF⟩
  | .lb _ _ _ => ⟨"lb", 0x80000000, 0xFC000000⟩
  | .lbu _ _ _ => ⟨"lbu", 0x90000000, 0xFC000000⟩
  | .lh _ _ _ => ⟨"lh", 0x84000000, 0xFC000000⟩
  | .lhu _ _ _ => ⟨"lhu", 0x94000000, 0xFC000000⟩
  | .lw _ _ _ => ⟨"lw", 0x8C000000, 0xFC000000⟩
  | .lwcz _ _ _ _ => ⟨"lwcz", 0xC0000000, 0xF0000000⟩
  | .lwl _ _ _ => ⟨"lwl", 0x88000000, 0xFC000000⟩
  | .lwr _ _ _ => ⟨"lwr", 0x98000000, 0xFC000000⟩
  | .sb _ _ _ => ⟨"sb", 0xA0000000, 0xFC000000⟩
  | .sh _ _ _ => ⟨"sh", 0xA4000000, 0xFC000000⟩
  | .sw _ _ _ => ⟨"sw", 0xAC000000, 0xFC000000⟩
  | .swcz _ _ _ _ => ⟨"swcz", 0xE0000000, 0xF0000000⟩
  | .swl _ _ _ => ⟨"swl", 0xA8000000, 0xFC000000⟩
  | .swr _ _ _ => ⟨"swr", 0xB8000000, 0xFC000000⟩
  | .mfhi _ => ⟨"mfhi", 0x00000010, 0xFFFF07FF⟩
  | .mflo _ => ⟨"mflo", 0x00000012, 0xFFFF07FF⟩
  | .mthi _ => ⟨"mthi", 0x00000011, 0xFC1FFFFF⟩
  | .mtlo _ => ⟨"mtlo", 0x00000013, 0xFC1FFFFF⟩
  | .mfcz _ _ _ => ⟨"mfcz", 0x40000000, 0xF3E007FF⟩
  | .mtcz _ _ _ => ⟨"mtcz", 0x40800000, 0xF3E007FF⟩
  | .absD _ _ => ⟨"abs.d", 0x46200005, 0xFFFF003F⟩
  | .absS _ _ => ⟨"abs.s", 0x46000005, 0xFFFF003F⟩
  | .addD _ _ _ => ⟨"add.d", 0x46200000, 0xFFE0003F⟩
  | .addS _ _ _ => ⟨"add.s", 0x46000000, 0xFFE0003F⟩
  | .cEqD _ _ => ⟨"c.eq.d", 0x46200032, 0xFFE007FF⟩
  | .cEqS _ _ => ⟨"c.eq.s", 0x46000032, 0xFFE007FF⟩
  | .cLeD _ _ => ⟨"c.le.d", 0x4620003E, 0xFFE007FF⟩
  | .cLeS _ _ => ⟨"c.le.s", 0x4600003E, 0xFFE007FF⟩
  | .cLtD _ _ => ⟨"c.lt.d", 0x4620003C, 0xFFE007FF⟩
  | .cLtS _ _ => ⟨"c.lt.s", 0x4600003C, 0xFFE007FF⟩
  | .cvtDS _ _ => ⟨"cvt.d.s", 0x46000021, 0xFFFF003F⟩
  | .cvtDW _ _ => ⟨"cvt.d.w", 0x46800021, 0xFFFF003F⟩
  | .cvtSD _ _ => ⟨"cvt.s.d", 0x46200020, 0xFFFF003F⟩
  | .cvtSW _ _ => ⟨"cvt.s.w", 0x46800020, 0xFFFF003F⟩
  | .cvtWD _ _ => ⟨"cvt.w.d", 0x46200024, 0xFFFF003F⟩
  | .cvtWS _ _ => ⟨"cvt.w.s", 0x46000024, 0xFFFF003F⟩
  | .divD _ _ _ => ⟨"div.d", 0x46200003, 0xFFE0003F⟩
  | .divS _ _ _ => ⟨"div.s", 0x46000003, 0xFFE0003F⟩
  | .movD _ _ => ⟨"mov.d", 0x46200006, 0xFFFF003F⟩
  | .movS _ _ => ⟨"mov.s", 0x46000006, 0xFFFF003F⟩
  | .mulD _ _ _ => ⟨"mul.d", 0x46200002, 0xFFE0003F⟩
  | .mulS _ _ _ => ⟨"mul.s", 0x46000002, 0xFFE0003F⟩
  | .negD _ _ => ⟨"neg.d", 0x46200007, 0xFFFF003F⟩
  | .negS _ _ => ⟨"neg.s", 0x46000007, 0xFFFF003F⟩
  | .subD _ _ _ => ⟨"sub.d", 0x46200001, 0xFFE0003F⟩
  | .subS _ _ _ => ⟨"sub.s", 0x46000001, 0xFFE0003F⟩
  | .rfe => ⟨"rfe", 0x46000020, 0xFFFFFFFF⟩
  | .syscall => ⟨"syscall", 0x0000000C, 0xFFFFFFFF⟩
  | .brk _ => ⟨"break", 0x0000000D, 0xFC00003F⟩
  | .nop => ⟨"nop", 0x00000000, 0xFFFFFFFF⟩

end Sys2Proof
end

