-- ==== Sys2Proof/Machine/State.lean ====
section
/-! DEFINITION. The state of the machine (10_state.md), the exceptions (60_exceptions.md R400), the faults and refusals a
step can end in (R404, R406), and the state after reset (R40, 70_reset_and_hazards.md R430). -/

namespace Sys2Proof.Machine

/-- The synchronous exceptions (60_exceptions.md R400), each with the argument it records (R402). -/
inductive Exception where
  /-- `Overflow` (R120, R131, R135). -/
  | overflow
  /-- `DivideByZero` (R137, R138, R149, R150). -/
  | divideByZero
  /-- `Break(n)` (R372). -/
  | brk (n : BitVec 20)
  /-- `AddressError(a)`: a misaligned access or fetch (20_memory.md R56, 10_state.md R25). -/
  | addressError (a : Word)
  /-- `BusError(a)`: an access or fetch of an address that is not allocated (20_memory.md R59). -/
  | busError (a : Word)
  /-- `ReservedInstruction(w)`: a word of no row of the table (30_encoding.md R106). -/
  | reservedInstruction (w : Word)
  /-- `UnknownSyscall(code)` (49_exception_trap_syscall.md R392). -/
  | unknownSyscall (code : Word)
deriving DecidableEq, Repr

/-- Why the machine stops with a fault. -/
inductive Fault where
  /-- `Fault(E, pc, info)` of 60_exceptions.md R404, the outcome of `raise`: the spec's own delivery of an exception. It is
  raised by `raise`. Safe: the run stops where a simulator would go on to a handler that the spec does not describe. -/
  | raised (e : Exception) (pc : Word)
  /-- A step of a run that has ended by service 10 (49_exception_trap_syscall.md R386: no later step exists). It is
  raised by `step`. Safe: there is no such step. -/
  | runEnded
deriving DecidableEq, Repr

/-- Why a form has no meaning (60_exceptions.md R406), each one safe: the model stops where the spec says that a model must
give no meaning. -/
inductive Refusal where
  /-- An instruction the model gives no meaning yet; raised by an arm of `exec`. Safe. No arm does so now. -/
  | notModelled (mnemonic : String)
  /-- `bczt`, `bczf` with `z` other than 1, whose flag nothing sets (R219, R220); raised by those two. Safe. -/
  | conditionFlagUnspecified (z : CopNum)
  /-- `bgezal`, `bltzal` that test register 31, which they overwrite (R226, R233); raised by those two. Safe. -/
  | linkSourceIsLink
  /-- `jalr` whose two registers are one (R241); raised by it. Safe. -/
  | jalrSameRegister
  /-- `ld`, `sd`, `mfc1.d` with register 31, which has no successor (R259, R281, R306); raised by those three. Safe. -/
  | pairRegister31
  /-- A floating-point operation that names an odd register (10_state.md R29); raised by all of 48_floating_point.md and
  `mfc1.d`. Safe. -/
  | oddFloatRegister
  /-- `rfe` where `STATUS_RESTORE` is not given (R370); raised by it. Safe. -/
  | statusRestoreNotSupplied
  /-- A store or service 8 that would write a `text` byte (20_memory.md R61); raised by every store. Safe. -/
  | storeToText (a : Word)
  /-- A fetch from a `data` region (20_memory.md R60); raised by `step`. Safe. -/
  | fetchFromData (pc : Word)
  /-- Service 4 on a string that never ends (R381); raised by it. Safe. -/
  | endlessString (a : Word)
  /-- A constant outside `[-2^31, 2^32 - 1]` (92_eei_decisions.md D19); raised by pseudoinstructions. Safe. -/
  | constantOutOfRange (c : Int)
  /-- A label a branch or jump field cannot reach (30_encoding.md R97, R98); raised by the assembler functions. Safe. -/
  | labelOutOfRange (label : Word)
deriving DecidableEq, Repr

/-- An output event of `host.out` (49_exception_trap_syscall.md R376). -/
inductive OutputEvent where
  | printInt (v : Word)
  | printFloat (b : Word)
  | printDouble (b : DWord)
  | printString (bs : List Byte)
  | printChar (b : Byte)
deriving DecidableEq, Repr

/-- Memory (20_memory.md R50, R51): the bytes that the image defined or a store wrote, by address. What an unlisted
address reads as is `State.byteAt`'s to say. -/
abbrev Memory := List Host.Cell

/-- Addresses strictly rise, all at least `low` and below `2^32`. -/
def memoryRises (low : Nat) : Memory → Bool
  | [] => true
  | (a, _) :: rest => decide (low ≤ a) && decide (a < 2 ^ 32) && memoryRises (a + 1) rest

/-- The one form of a memory: strictly rising addresses of the 32-bit space. An unlisted address has no byte of its own
(log 16), so no listed byte equals what it reads as. -/
def Memory.wf (m : Memory) : Bool := memoryRises 0 m

/-- The state of the machine (10_state.md R20 to R33), and three fields of the model's own: `cfg` (log 1), `draws`
(log 13) and `ended` (log 18). -/
structure State where
  /-- `x[0]` to `x[31]` (R20). -/
  regs : Vector Word 32
  /-- The address of the instruction being executed (R23). -/
  pc : Word
  /-- `hi` (R26). -/
  hi : Word
  /-- `lo` (R26). -/
  lo : Word
  /-- `c[z][i]` (R27); `f[i]` is `c[1][i]` (R28). -/
  cop : Vector (Vector Word 32) 4
  /-- `cc[z]` (R30). -/
  cc : Vector Bool 4
  /-- `status` (R31). -/
  status : Word
  /-- Memory (20_memory.md R50). -/
  mem : Memory
  /-- `host.out`, oldest first (R33, R376). -/
  out : List OutputEvent
  /-- `host.in`: the answers services 5, 6 and 12 will get (R376, log 11). -/
  inWords : List Word
  /-- `host.in`: the answers service 7 will get. -/
  inDoubles : List DWord
  /-- `host.in`: the lines service 8 will get. -/
  inLines : List (List Byte)
  /-- The model's own: how many free values the run has drawn (log 13). -/
  draws : Nat
  /-- The model's own: service 10 has ended the run (log 18). -/
  ended : Bool
  /-- The parameters of the run (00_scope.md R7, log 1). -/
  cfg : Config
deriving DecidableEq, Repr

/-- The parameters of the state after reset. DESIGN CHOICE, unsafe (logs 2 to 9): the spec leaves each open; where it
gives a default this is it, but for `STATUS_RESTORE` (log 9). -/
def resetConfig : Config where
  endian := .little
  memmap := [⟨0x00400000, 0x1000, .text⟩, ⟨0x10010000, 0x1000, .data⟩]
  entry := 0x00400000
  branchBase := .afterBranch
  sdiv := .truncating
  fp := .ieee754
  cvtW := .nearestEven
  statusRestore := .supplied

/-- The state after reset (10_state.md R40, 70_reset_and_hazards.md R430): `pc` is `ENTRY`, `x[0]` is 0, `host.out` is
empty, and no image is loaded (log 17). Every register the spec leaves unspecified is 0: DESIGN CHOICE, unsafe
(log 15). -/
def State.reset : State where
  regs := Vector.replicate 32 0
  pc := resetConfig.entry
  hi := 0
  lo := 0
  cop := Vector.replicate 4 (Vector.replicate 32 0)
  cc := Vector.replicate 4 false
  status := 0
  mem := []
  out := []
  inWords := []
  inDoubles := []
  inLines := []
  draws := 0
  ended := false
  cfg := resetConfig

/-- What a step, a meaning and a pseudoinstruction answer. -/
abbrev Result := Host.Outcome State Fault Refusal

end Sys2Proof.Machine
end

