-- ==== Sys2Proof/Machine/Ops.lean ====
section
/-! DEFINITION. The named operations over registers and memory, the exception and the return from one: every meaning is
written with these. -/

namespace Sys2Proof.Machine

/-! ## General registers (10_state.md R20, R21) -/

/-- `x[r]`: register 0 reads as 0 (R21). -/
def State.readReg (s : State) (r : Reg) : Word :=
  if r = 0#5 then 0#32 else s.regs[r.toNat]'r.isLt

/-- `x[r] <- v`: a write to register 0 is discarded (R21). -/
def State.writeReg (s : State) (r : Reg) (v : Word) : State :=
  { s with regs := if r = 0#5 then s.regs else s.regs.set r.toNat v r.isLt }

/-! ## Coprocessor registers, floating-point registers, condition flags (R27 to R30) -/

/-- `c[z][i]` (R27). -/
def State.readCop (s : State) (z : CopNum) (i : Reg) : Word :=
  (s.cop[z.toNat]'z.isLt)[i.toNat]'i.isLt

/-- `c[z][i] <- v` (R27): plain storage (92_eei_decisions.md D27, log 21). -/
def State.writeCop (s : State) (z : CopNum) (i : Reg) (v : Word) : State :=
  { s with cop := s.cop.set z.toNat ((s.cop[z.toNat]'z.isLt).set i.toNat v i.isLt) z.isLt }

/-- `f[i]`, the same cell as `c[1][i]` (R28). -/
def State.readSingle (s : State) (i : Reg) : Word := s.readCop 1#2 i

/-- `f[i] <- v` (R28). -/
def State.writeSingle (s : State) (i : Reg) (v : Word) : State := s.writeCop 1#2 i v

/-- `d[i]`: `f[i+1] : f[i]`, the even register the less significant word (R29). -/
def State.readDouble (s : State) (i : Reg) : DWord :=
  (s.readSingle (i + 1#5) ++ s.readSingle i).cast rfl

/-- `d[i] <- v` (R29, 48_floating_point.md R320). -/
def State.writeDouble (s : State) (i : Reg) (v : DWord) : State :=
  (s.writeSingle i (v.extractLsb' 0 32)).writeSingle (i + 1#5) (v.extractLsb' 32 32)

/-- `cc[z]` (R30). -/
def State.readFlag (s : State) (z : CopNum) : Bool := s.cc[z.toNat]'z.isLt

/-- `cc[z] <- b` (R30). -/
def State.writeFlag (s : State) (z : CopNum) (b : Bool) : State := { s with cc := s.cc.set z.toNat b z.isLt }

/-! ## The multiply and divide unit (R26) -/

/-- `hi <- h` and `lo <- l` (R26). -/
def State.writeHiLo (s : State) (h l : Word) : State := { s with hi := h, lo := l }

/-! ## Free values (00_scope.md R9, log 13) -/

/-- The state after `n` values are drawn. -/
def State.afterDraws (s : State) (n : Nat) : State := { s with draws := s.draws + n }

/-! ## The program counter (R23, R24, R25) -/

/-- `pc <- t`. -/
def State.jump (s : State) (t : Word) : State := { s with pc := t }

/-- The address of the next instruction, modulo `2^32` (R24, R25; 44_branch_jump.md R217). -/
def State.nextPc (s : State) : Word := s.pc + 4#32

/-- The end of a machine instruction that does not write `pc` (R24). -/
def done (s : State) : Result := .next (s.jump s.nextPc)

/-! ## Exceptions (60_exceptions.md R402 to R409) -/

/-- `raise E(info)` (R404), shared by every instruction: the run stops with the exception, the `pc` of the instruction that
raised it and its argument (R402); no part of the state has changed (R403, log 19). -/
def raise (e : Exception) (s : State) : Result := .fault (.raised e s.pc)

/-- What `rfe` does to `status` (49_exception_trap_syscall.md R370, 60_exceptions.md R409): the open function
`STATUS_RESTORE`; `pc` is not its affair. -/
def State.restoreStatus (s : State) : State := { s with status := Config.restoredStatus s.status }

/-- Return from an exception (R370, R409): refused where `STATUS_RESTORE` is not given. -/
def returnFromException (fin : State → Result) (s : State) : Result :=
  match s.cfg.statusRestore with
  | .notSupplied => .refused .statusRestoreNotSupplied
  | .supplied => fin s.restoreStatus

/-- Why an instruction does not have its effect: it raises (R404) or its form is refused (R406). -/
inductive Stop where
  | raises (e : Exception)
  | refuses (r : Refusal)
deriving DecidableEq, Repr

/-- The outcome of an instruction that stops. -/
def stopWith (c : Stop) (s : State) : Result :=
  match c with
  | .raises e => raise e s
  | .refuses r => .refused r

/-- The outcome `r`, unless a check has found a reason to stop. -/
def unlessStop (c : Option Stop) (s : State) (r : Result) : Result :=
  match c with
  | some stop => stopWith stop s
  | none => r

/-! ## Bytes of memory (20_memory.md R50 to R54) -/

/-- The byte a memory lists at an address. -/
def memoryGet : Memory → Nat → Option Byte
  | [], _ => none
  | (k, b) :: rest, a => if k = a then some b else memoryGet rest a

/-- A memory with the byte at an address replaced; it keeps the one form of a memory. -/
def memoryPut : Memory → Nat → Byte → Memory
  | [], a, b => [(a, b)]
  | (k, c) :: rest, a, b =>
    if a < k then (a, b) :: (k, c) :: rest
    else if a = k then (a, b) :: rest
    else (k, c) :: memoryPut rest a b

/-- What an unlisted address reads as: the byte the image or the machine left there is unspecified (10_state.md R40,
93_implementation_defined.md V1, log 16). -/
def unwrittenByte (a : Word) : Byte := Config.initialByte a

/-- `M[a]`: the last byte written at `a`, or the image's (20_memory.md R57, R62). -/
def State.byteAt (s : State) (a : Word) : Byte := (memoryGet s.mem a.toNat).getD (unwrittenByte a)

/-- `M[a] <- b`. -/
def State.writeByte (s : State) (a : Word) (b : Byte) : State := { s with mem := memoryPut s.mem a.toNat b }

/-- Writes of bytes, in the order of the list. -/
def State.writeBytes (s : State) : List (Word × Byte) → State
  | [] => s
  | (a, b) :: rest => (s.writeByte a b).writeBytes rest

/-- The addresses `a`, `a+1`, …, `n` of them, modulo `2^32` (R51). -/
def bytesFrom (a : Word) : Nat → List Word
  | 0 => []
  | n + 1 => a :: bytesFrom (a + 1#32) n

/-- `MemReadU(a, 2)`, and the value of `MemRead(a, 2)` (R53, 45_load.md R269). -/
def State.halfAt (s : State) (a : Word) : Half := halfOfBytes s.cfg.endian (s.byteAt a) (s.byteAt (a + 1#32))

/-- `MemReadU(a, 4)`, and the value of `MemRead(a, 4)` (R53, 45_load.md R269). -/
def State.wordAt (s : State) (a : Word) : Word :=
  wordOfBytes s.cfg.endian (s.byteAt a) (s.byteAt (a + 1#32)) (s.byteAt (a + 2#32)) (s.byteAt (a + 3#32))

/-- The bytes `MemWrite(a, 1, v)` writes (R54). -/
def byteCells (a : Word) (v : Byte) : List (Word × Byte) := [(a, v)]

/-- The bytes `MemWrite(a, 2, v)` writes (R54). -/
def halfCells (e : Endian) (a : Word) (v : Half) : List (Word × Byte) := (bytesFrom a 2).zip (bytesOfHalf e v)

/-- The bytes `MemWrite(a, 4, v)` writes (R54). -/
def wordCells (e : Endian) (a : Word) (v : Word) : List (Word × Byte) := (bytesFrom a 4).zip (bytesOfWord e v)

/-! ## The address map and the checks of an access (R55 to R61) -/

/-- The region holds the address. -/
def Region.holds (r : Region) (a : Word) : Bool := decide (r.base ≤ a.toNat) && decide (a.toNat < r.base + r.size)

/-- The class of an address by a list of regions: the first that holds it decides (R58, log 3). -/
def classIn (memmap : List Region) (a : Word) : AddrClass :=
  match memmap with
  | [] => .unmapped
  | r :: rest =>
    if Region.holds r a then
      match r.kind with
      | .text => .text
      | .data => .data
    else classIn rest a

/-- `MEMMAP(a)` (R58). -/
def State.classAt (s : State) (a : Word) : AddrClass := classIn s.cfg.memmap a

/-- Some address of the list is of the class. -/
def State.anyOf (s : State) (c : AddrClass) (addrs : List Word) : Bool := addrs.any (fun a => s.classAt a == c)

/-- The checks of a read at `a` of the bytes `addrs`: alignment, then allocation (R53, R56, R59); the address an exception
carries is that of the access (log 24). -/
def readStop (s : State) (align : Nat) (a : Word) (addrs : List Word) : Option Stop :=
  if a.toNat % align ≠ 0 then some (.raises (.addressError a))
  else if s.anyOf .unmapped addrs then some (.raises (.busError a))
  else none

/-- The checks of a write: those of a read, then no byte of program text (R54, R61). -/
def writeStop (s : State) (align : Nat) (a : Word) (addrs : List Word) : Option Stop :=
  match readStop s align a addrs with
  | some stop => some stop
  | none => if s.anyOf .text addrs then some (.refuses (.storeToText a)) else none

/-- The first reason to stop, of two accesses checked one after the other (R407). -/
def firstStop (c d : Option Stop) : Option Stop :=
  match c with
  | some stop => some stop
  | none => d

/-! ## Loads and stores, shared by machine instructions and pseudoinstructions

`fin` ends the instruction: `done` for a machine instruction (R24), the end of a pseudoinstruction (R38) for one. -/

/-- How many bytes a plain load reads (20_memory.md R57). -/
def LoadKind.size : LoadKind → Nat
  | .byte | .byteUnsigned => 1
  | .half | .halfUnsigned => 2
  | .word => 4

/-- The value a plain load gives: extended with the sign or with zeros (45_load.md R257, R258, R260, R261, R262). -/
def LoadKind.value (kind : LoadKind) (s : State) (a : Word) : Word :=
  match kind with
  | .byte => (s.byteAt a).signExtend 32
  | .byteUnsigned => (s.byteAt a).setWidth 32
  | .half => (s.halfAt a).signExtend 32
  | .halfUnsigned => (s.halfAt a).setWidth 32
  | .word => s.wordAt a

/-- A load of `kind` at `a`, its address a multiple of `align`, into general register `rt`. -/
def loadReg (kind : LoadKind) (align : Nat) (a : Word) (rt : Reg) (fin : State → Result) (s : State) : Result :=
  unlessStop (readStop s align a (bytesFrom a (LoadKind.size kind))) s (fin (s.writeReg rt (LoadKind.value kind s a)))

/-- A word load at `a` into register `i` of coprocessor `z` (45_load.md R263). -/
def loadCop (z : CopNum) (i : Reg) (a : Word) (fin : State → Result) (s : State) : Result :=
  unlessStop (readStop s 4 a (bytesFrom a 4)) s (fin (s.writeCop z i (s.wordAt a)))

/-- The bytes a plain store writes (46_store.md R280, R282, R283). -/
def StoreKind.cells (kind : StoreKind) (e : Endian) (a : Word) (v : Word) : List (Word × Byte) :=
  match kind with
  | .byte => byteCells a (v.extractLsb' 0 8)
  | .half => halfCells e a (v.extractLsb' 0 16)
  | .word => wordCells e a v

/-- How many bytes a plain store writes, which is what its address must be a multiple of (20_memory.md R55, R57). -/
def StoreKind.size : StoreKind → Nat
  | .byte => 1
  | .half => 2
  | .word => 4

/-- A write at `a` of the bytes `cells`, all checked before the first is written. -/
def storeCells (align : Nat) (a : Word) (cells : List (Word × Byte)) (fin : State → Result) (s : State) : Result :=
  unlessStop (writeStop s align a (cells.map Prod.fst)) s (fin (s.writeBytes cells))

/-! ## Unaligned stores (46_store.md R288, R289) -/

/-- How many bytes the first access of an unaligned store at `a` writes (20_memory.md R57): `ush` writes one byte at a time;
`usw` writes those of the aligned word that holds `a`, then the others, if any. -/
def StoreKind.firstAccess (kind : StoreKind) (a : Word) : Nat :=
  match kind with
  | .byte => 1
  | .half => 1
  | .word => 4 - a.toNat % 4

/-- The checks of an unaligned store at `a` of the bytes `addrs`, `count` of them in its first access: that access is
checked whole before the other (60_exceptions.md R407). DESIGN CHOICE, log 39: R289 names the checks of each byte and no
order, and an exception of either access carries `a`. -/
def unalignedWriteStop (s : State) (count : Nat) (a : Word) (addrs : List Word) : Option Stop :=
  firstStop (writeStop s 1 a (addrs.take count)) (writeStop s 1 a (addrs.drop count))

/-- `MemWriteU` (R289): the low bytes of `v` at any address `a`, all checked before the first is written. -/
def storeUnaligned (kind : StoreKind) (a : Word) (v : Word) (fin : State → Result) (s : State) : Result :=
  let cells := StoreKind.cells kind s.cfg.endian a v
  unlessStop (unalignedWriteStop s (StoreKind.firstAccess kind a) a (cells.map Prod.fst)) s (fin (s.writeBytes cells))

/-! ## Partial words (45_load.md R264) -/

/-- The memory bytes of a partial-word access at `a` and, beside each, the register byte it pairs with, from byte `a` on:
the table of R264. -/
def partialPairs (side : Side) (e : Endian) (a : Word) : List (Word × Nat) :=
  let k := a.toNat % 4
  match side, e with
  | .left, .big => (List.range (4 - k)).map fun i => (a + BitVec.ofNat 32 i, 3 - i)
  | .right, .big => (List.range (k + 1)).map fun i => (a - BitVec.ofNat 32 i, i)
  | .left, .little => (List.range (k + 1)).map fun i => (a - BitVec.ofNat 32 i, 3 - i)
  | .right, .little => (List.range (4 - k)).map fun i => (a + BitVec.ofNat 32 i, i)

/-- Byte `i` of a word replaced (R264, `B0` the least significant). -/
def setByteOfWord (v : Word) (i : Nat) (b : Byte) : Word :=
  match i with
  | 0 => (v.extractLsb' 8 24 ++ b).cast rfl
  | 1 => (v.extractLsb' 16 16 ++ b ++ v.extractLsb' 0 8).cast rfl
  | 2 => (v.extractLsb' 24 8 ++ b ++ v.extractLsb' 0 16).cast rfl
  | _ => (b ++ v.extractLsb' 0 24).cast rfl

/-- A word with the bytes of some pairs replaced by the memory's (R265, R266). -/
def mergeBytes (s : State) (v : Word) : List (Word × Nat) → Word
  | [] => v
  | (a, i) :: rest => mergeBytes s (setByteOfWord v i (s.byteAt a)) rest

/-- `lwl`, `lwr` at `a` (R265, R266): the bytes it does not load keep their old value. -/
def loadPartial (side : Side) (a : Word) (rt : Reg) (fin : State → Result) (s : State) : Result :=
  let pairs := partialPairs side s.cfg.endian a
  unlessStop (readStop s 1 a (pairs.map Prod.fst)) s (fin (s.writeReg rt (mergeBytes s (s.readReg rt) pairs)))

/-- The bytes `swl`, `swr` at `a` write (46_store.md R286, R287). -/
def partialCells (side : Side) (e : Endian) (a : Word) (v : Word) : List (Word × Byte) :=
  (partialPairs side e a).map fun p => (p.1, byteOfWord v p.2)

/-- `swl`, `swr` at `a` (R286, R287). -/
def storePartial (side : Side) (a : Word) (v : Word) (fin : State → Result) (s : State) : Result :=
  storeCells 1 a (partialCells side s.cfg.endian a v) fin s

end Sys2Proof.Machine
end

