-- ==== Sys2Proof/Machine/Operands.lean ====
section
/-! DEFINITION. The operand forms: immediates, effective addresses, targets, distances, `Src2`, `address`, floating-point
registers. -/

namespace Sys2Proof.Machine

/-- `sext_16` of an immediate (30_encoding.md R96): `addi`, `addiu`, `slti`, `sltiu`, and every `Offset`. -/
def signExtendImm (imm : BitVec 16) : Word := imm.signExtend 32

/-- `zext_16` of an immediate (R96): `andi`, `ori`, `xori`. -/
def zeroExtendImm (imm : BitVec 16) : Word := imm.setWidth 32

/-- `Imm : 0^16` (R96, 42_constant.md R191): `lui`. -/
def upperImm (imm : BitVec 16) : Word := (imm ++ 0#16).cast rfl

/-- `ea` of `Offset(Base)`, modulo `2^32` (45_load.md R255). -/
def effectiveAddress (s : State) (base : Reg) (offset : BitVec 16) : Word := s.readReg base + signExtendImm offset

/-- The 32-bit pattern of a constant (40_arithmetic_logical.md R121). -/
def patternOf (c : Int) : Word := BitVec.ofInt 32 c

/-- `val(Src2)` (R121). -/
def valueOf (s : State) (src2 : Src2) : Word :=
  match src2 with
  | .reg r => s.readReg r
  | .const c => patternOf c

/-- `ea(address)` (45_load.md R255). -/
def addressOf (s : State) (address : Address) : Word :=
  match address with
  | .absolute value => patternOf value
  | .indexed offset base => s.readReg base + patternOf offset

/-- The distance of a variable shift: the low five bits (41_shift_rotate.md R178). -/
def distanceOf (v : Word) : Nat := (v.extractLsb' 0 5).toNat

/-- `BRANCH_BASE` (44_branch_jump.md R215, log 5). -/
def branchBase (s : State) : Word :=
  match s.cfg.branchBase with
  | .atBranch => s.pc
  | .afterBranch => s.pc + 4#32

/-- The target of a taken branch (R215, 30_encoding.md R97): the offset counts instructions. -/
def branchTarget (s : State) (offset : BitVec 16) : Word := branchBase s + offset.signExtend 32 * 4#32

/-- The target of `j` and `jal` (R216, 30_encoding.md R98). -/
def jumpTarget (s : State) (target : BitVec 26) : Word :=
  ((s.pc + 4#32).extractLsb' 28 4 ++ target ++ 0#2).cast rfl

/-- A register number is odd. -/
def oddReg (r : Reg) : Bool := r.getLsbD 0

/-- "all even" (48_floating_point.md R320): a form that names an odd floating-point register is refused. -/
def evenStop (registers : List Reg) : Option Stop :=
  if registers.any oddReg then some (.refuses .oddFloatRegister) else none

/-- A pair of general registers starts at 30 or below (R259, R281, R306). -/
def pairStop (r : Reg) : Option Stop :=
  if r = 31#5 then some (.refuses .pairRegister31) else none

/-- A constant the assembler rejects (92_eei_decisions.md D19, 60_exceptions.md R406). -/
def constantStop (c : Int) : Option Stop :=
  if constantInRange c then none else some (.refuses (.constantOutOfRange c))

/-- The check of the constant of a `Src2`. -/
def src2Stop (src2 : Src2) : Option Stop :=
  match src2 with
  | .reg _ => none
  | .const c => constantStop c

/-- The check of the constant of an `address`. -/
def addressStop (address : Address) : Option Stop :=
  match address with
  | .absolute value => constantStop value
  | .indexed offset _ => constantStop offset

end Sys2Proof.Machine
end

