-- ==== Sys2Proof/Machine/Float.lean ====
section
/-! DEFINITION. The default `FP` of 48_floating_point.md R321, R322, R349, R354: IEEE 754 binary32 and binary64, exact
results rounded once to the nearest, ties to even. A result that is some NaN is `none`: its sign and fraction are drawn
(log 14). -/

namespace Sys2Proof.Machine

/-- A binary format (R322): the widths of its exponent and of its fraction. -/
structure FloatFormat where
  expBits : Nat
  fracBits : Nat
deriving DecidableEq, Repr

/-- binary32 (R322). -/
def single : FloatFormat := ⟨8, 23⟩

/-- binary64 (R322). -/
def double : FloatFormat := ⟨11, 52⟩

/-- The bias of the exponent (R322): 127 and 1023. -/
def FloatFormat.bias (fmt : FloatFormat) : Nat := 2 ^ (fmt.expBits - 1) - 1

/-- The exponent field of infinities and NaNs: all ones (R322). -/
def FloatFormat.expMax (fmt : FloatFormat) : Nat := 2 ^ fmt.expBits - 1

/-- The exponent of the last place of a subnormal, the least there is. -/
def FloatFormat.minExp (fmt : FloatFormat) : Int := 1 - (fmt.bias : Int) - (fmt.fracBits : Int)

/-- The value of a pattern: a NaN, an infinity, or `mant * 2^exp` with a sign, zeros included. -/
inductive FloatValue where
  | nan
  | inf (neg : Bool)
  | fin (neg : Bool) (mant : Nat) (exp : Int)
deriving DecidableEq, Repr

/-- The value of a pattern of a format (R322). -/
def FloatFormat.valueOf (fmt : FloatFormat) (bits : Nat) : FloatValue :=
  let frac := bits % 2 ^ fmt.fracBits
  let expo := bits / 2 ^ fmt.fracBits % 2 ^ fmt.expBits
  let neg := bits / 2 ^ (fmt.fracBits + fmt.expBits) % 2 == 1
  if expo = fmt.expMax then (if frac = 0 then .inf neg else .nan)
  else if expo = 0 then .fin neg frac fmt.minExp
  else .fin neg (2 ^ fmt.fracBits + frac) (fmt.minExp + (expo : Int) - 1)

/-- A pattern from a sign and the bits below it. -/
def FloatFormat.withSign (fmt : FloatFormat) (neg : Bool) (magnitude : Nat) : Nat :=
  (if neg then 2 ^ (fmt.fracBits + fmt.expBits) else 0) + magnitude

/-- The pattern of an infinity below its sign. -/
def FloatFormat.infinity (fmt : FloatFormat) : Nat := fmt.expMax * 2 ^ fmt.fracBits

/-- `num / den` rounded to the nearest integer, ties to even (R321(a)). -/
def nearestEvenDiv (num den : Nat) : Nat :=
  let q := num / den
  let r := num % den
  if 2 * r < den then q
  else if den < 2 * r then q + 1
  else if q % 2 = 0 then q else q + 1

/-- The greatest `k` with `2^k ≤ num / den`, for positive `num` and `den`. -/
def floorLog2 (num den : Nat) : Int :=
  let k : Int := (Nat.log2 num : Int) - (Nat.log2 den : Int)
  if num * 2 ^ (-k).toNat < den * 2 ^ k.toNat then k - 1 else k

/-- The pattern, below the sign, of `num / den * 2^exp` rounded to a format (R321(a), (b), (c)): subnormals are kept, a
result too large is an infinity. The exponent of the last place is chosen so that the significand fills its width; a
significand that rounds up to the next power of two carries into the exponent field by itself. -/
def FloatFormat.roundMagnitude (fmt : FloatFormat) (num den : Nat) (exp : Int) : Nat :=
  if num = 0 then 0
  else
    let place := max fmt.minExp (floorLog2 num den + exp - (fmt.fracBits : Int))
    let shift := exp - place
    let mant := nearestEvenDiv (num * 2 ^ shift.toNat) (den * 2 ^ (-shift).toNat)
    let magnitude := (place - fmt.minExp).toNat * 2 ^ fmt.fracBits + mant
    if fmt.infinity ≤ magnitude then fmt.infinity else magnitude

/-- The pattern of `± num / den * 2^exp` rounded to a format. -/
def FloatFormat.round (fmt : FloatFormat) (neg : Bool) (num den : Nat) (exp : Int) : Nat :=
  fmt.withSign neg (fmt.roundMagnitude num den exp)

/-- The integer `± mant * 2^(exp - base)`, for `base ≤ exp`. -/
def scaledInt (neg : Bool) (mant : Nat) (exp base : Int) : Int :=
  if neg then -((mant * 2 ^ (exp - base).toNat : Nat) : Int) else ((mant * 2 ^ (exp - base).toNat : Nat) : Int)

/-- The sum of two values, rounded (R321); `x - x` is `+0` and `-0 + -0` is `-0` (R321(e)). -/
def addValues (fmt : FloatFormat) (x y : FloatValue) : Option Nat :=
  match x, y with
  | .nan, _ => none
  | _, .nan => none
  | .inf a, .inf b => if a = b then some (fmt.withSign a fmt.infinity) else none
  | .inf a, .fin _ _ _ => some (fmt.withSign a fmt.infinity)
  | .fin _ _ _, .inf b => some (fmt.withSign b fmt.infinity)
  | .fin a m e, .fin b n f =>
    let base := min e f
    let sum := scaledInt a m e base + scaledInt b n f base
    if sum = 0 then some (fmt.withSign (a && b) 0)
    else some (fmt.round (decide (sum < 0)) sum.natAbs 1 base)

/-- A value with the other sign: `x - y` is `x + (-y)`. -/
def negateValue (x : FloatValue) : FloatValue :=
  match x with
  | .nan => .nan
  | .inf a => .inf (!a)
  | .fin a m e => .fin (!a) m e

/-- The product of two values, rounded (R321); `0 * inf` is a NaN (R321(c)). -/
def mulValues (fmt : FloatFormat) (x y : FloatValue) : Option Nat :=
  match x, y with
  | .nan, _ => none
  | _, .nan => none
  | .inf a, .inf b => some (fmt.withSign (a != b) fmt.infinity)
  | .inf a, .fin b n _ => if n = 0 then none else some (fmt.withSign (a != b) fmt.infinity)
  | .fin a m _, .inf b => if m = 0 then none else some (fmt.withSign (a != b) fmt.infinity)
  | .fin a m e, .fin b n f => some (fmt.round (a != b) (m * n) 1 (e + f))

/-- The quotient of two values, rounded (R321); `0/0` and `inf/inf` are NaNs, a non-zero finite number by zero is an
infinity (R321(c)). -/
def divValues (fmt : FloatFormat) (x y : FloatValue) : Option Nat :=
  match x, y with
  | .nan, _ => none
  | _, .nan => none
  | .inf _, .inf _ => none
  | .inf a, .fin b _ _ => some (fmt.withSign (a != b) fmt.infinity)
  | .fin a _ _, .inf b => some (fmt.withSign (a != b) 0)
  | .fin a m e, .fin b n f =>
    if n = 0 then (if m = 0 then none else some (fmt.withSign (a != b) fmt.infinity))
    else some (fmt.round (a != b) m n (e - f))

/-- `add`, `sub`, `mul`, `div` on values (R321). -/
def arithValues (fmt : FloatFormat) (op : FloatOp) (x y : FloatValue) : Option Nat :=
  match op with
  | .add => addValues fmt x y
  | .sub => addValues fmt x (negateValue y)
  | .mul => mulValues fmt x y
  | .div => divValues fmt x y

/-- `add`, `sub`, `mul`, `div` on patterns of a format (R321). -/
def arithBits (fmt : FloatFormat) (op : FloatOp) (x y : Nat) : Option Nat :=
  arithValues fmt op (fmt.valueOf x) (fmt.valueOf y)

/-- A number in another format (R333, R335). -/
def convertBits (source target : FloatFormat) (bits : Nat) : Option Nat :=
  match source.valueOf bits with
  | .nan => none
  | .inf a => some (target.withSign a target.infinity)
  | .fin a m e => some (target.round a m 1 e)

/-- An integer in a format (R334, R336); the integer 0 is `+0`. -/
def integerBits (fmt : FloatFormat) (n : Int) : Nat := fmt.round (decide (n < 0)) n.natAbs 1 0

/-- `± num / den` rounded to an integer by one of the rules of `FP_CVT_W` (R349). -/
def roundToInt (rule : Rounding) (neg : Bool) (num den : Nat) : Int :=
  let down := num / den
  let up := if num % den = 0 then down else down + 1
  let magnitude :=
    match rule with
    | .nearestEven => nearestEvenDiv num den
    | .towardZero => down
    | .towardMinusInfinity => if neg then up else down
    | .towardPlusInfinity => if neg then down else up
  if neg then -(magnitude : Int) else (magnitude : Int)

/-- The integer of a value (R349): `none` for a NaN, an infinity, or a rounded integer outside `[-2^31, 2^31 - 1]`, whose
result is drawn. -/
def integerOf (rule : Rounding) (x : FloatValue) : Option Word :=
  match x with
  | .nan => none
  | .inf _ => none
  | .fin neg m e =>
    let n := roundToInt rule neg (m * 2 ^ e.toNat) (2 ^ (-e).toNat)
    if -2147483648 ≤ n ∧ n ≤ 2147483647 then some (BitVec.ofInt 32 n) else none

/-- A relation of two values (R354): numbers are compared as numbers, so `+0` equals `-0`; with a NaN all three are
false. -/
def compareValues (rel : FloatRel) (x y : FloatValue) : Bool :=
  let byInt (a b : Int) : Bool :=
    match rel with
    | .eq => decide (a = b)
    | .le => decide (a ≤ b)
    | .lt => decide (a < b)
  match x, y with
  | .nan, _ => false
  | _, .nan => false
  | .inf a, .inf b => byInt (if a then -1 else 1) (if b then -1 else 1)
  | .inf a, .fin _ _ _ => byInt (if a then -1 else 1) 0
  | .fin _ _ _, .inf b => byInt 0 (if b then -1 else 1)
  | .fin a m e, .fin b n f => byInt (scaledInt a m e (min e f)) (scaledInt b n f (min e f))

/-- A relation of two patterns of a format (R354). -/
def compareBits (fmt : FloatFormat) (rel : FloatRel) (x y : Nat) : Bool :=
  compareValues rel (fmt.valueOf x) (fmt.valueOf y)

/-! ## Patterns of the two widths -/

/-- The pattern is a NaN of binary32 (R322). -/
def isNan32 (v : Word) : Bool := single.valueOf v.toNat == .nan

/-- The pattern is a NaN of binary64 (R322). -/
def isNan64 (v : DWord) : Bool := double.valueOf v.toNat == .nan

/-- Some NaN of binary32, its sign and fraction taken from a free value (R321(d), log 14): any NaN can be it. -/
def nanFrom32 (v : Word) : Word :=
  let frac := v.extractLsb' 0 23
  (v.extractLsb' 31 1 ++ 0xFF#8 ++ (if frac = 0#23 then 1#23 else frac)).cast rfl

/-- Some NaN of binary64, likewise. -/
def nanFrom64 (v : DWord) : DWord :=
  let frac := v.extractLsb' 0 52
  (v.extractLsb' 63 1 ++ 0x7FF#11 ++ (if frac = 0#52 then 1#52 else frac)).cast rfl

end Sys2Proof.Machine
end

