-- ==== Sys2Proof/Machine/Flags.lean ====
section
/-! DEFINITION. Every flag and every condition the spec computes: the overflow conditions of 40_arithmetic_logical.md, the
relations of 43_comparison.md and 44_branch_jump.md, and the condition flag of 48_floating_point.md R354. There are no
integer condition codes (10_state.md R30). -/

namespace Sys2Proof.Machine

/-- The exact result does not fit a signed word (40_arithmetic_logical.md R120). -/
def overflowsSigned (t : Int) : Bool := decide (t < -2147483648) || decide (2147483647 < t)

/-- The exact result does not fit an unsigned word (R131). -/
def overflowsUnsigned (t : Nat) : Bool := decide (4294967295 < t)

/-- The one signed division whose quotient does not fit: `-2^31 / -1` (R135, R137, R149). -/
def quotientOverflows (a b : Word) : Bool := a == 0x80000000#32 && b == 0xFFFFFFFF#32

/-- A relation of two words (43_comparison.md R195): signed, but for the names that end in `u`. -/
def relationHolds (rel : Relation) (a b : Word) : Bool :=
  match rel with
  | .eq => decide (a = b)
  | .ne => decide (a ≠ b)
  | .ge => decide (b.toInt ≤ a.toInt)
  | .geu => decide (b.toNat ≤ a.toNat)
  | .gt => decide (b.toInt < a.toInt)
  | .gtu => decide (b.toNat < a.toNat)
  | .le => decide (a.toInt ≤ b.toInt)
  | .leu => decide (a.toNat ≤ b.toNat)
  | .lt => decide (a.toInt < b.toInt)
  | .ltu => decide (a.toNat < b.toNat)

/-- 1 or 0, what a comparison leaves (R195). -/
def truthWord (b : Bool) : Word := if b then 1#32 else 0#32

/-- The flag `cc[1]` a comparison of singles sets (48_floating_point.md R354). -/
def flagSingle (s : State) (rel : FloatRel) (x y : Word) : Bool :=
  match s.cfg.fp with
  | .ieee754 => compareBits single rel x.toNat y.toNat
  | .hostDefined => Config.hostCompare32 rel x y

/-- The flag `cc[1]` a comparison of doubles sets (48_floating_point.md R354). -/
def flagDouble (s : State) (rel : FloatRel) (x y : DWord) : Bool :=
  match s.cfg.fp with
  | .ieee754 => compareBits double rel x.toNat y.toNat
  | .hostDefined => Config.hostCompare64 rel x y

end Sys2Proof.Machine
end

