-- ==== Sys2Proof/Machine/Arithmetic.lean ====
section
/-! DEFINITION. Arithmetic and logical instructions (40_arithmetic_logical.md). The shared operations take the operand
values and how the instruction ends; the meanings name the operands. -/

namespace Sys2Proof.Machine

/-! ## Shared operations -/

/-- `x[rd] <- v`, and the instruction ends. -/
def setReg (rd : Reg) (v : Word) (fin : State → Result) (s : State) : Result := fin (s.writeReg rd v)

/-- The exact result `t` into `rd`, or `Overflow` where it does not fit a signed word (R120). -/
def setRegOrOverflow (rd : Reg) (t : Int) (fin : State → Result) (s : State) : Result :=
  if overflowsSigned t then raise .overflow s else setReg rd (BitVec.ofInt 32 t) fin s

/-- `hi : lo <-` the signed product (R132). -/
def multiplySigned (a b : Word) (fin : State → Result) (s : State) : Result :=
  let p := BitVec.ofInt 64 (a.toInt * b.toInt)
  fin (s.writeHiLo (p.extractLsb' 32 32) (p.extractLsb' 0 32))

/-- `hi : lo <-` the unsigned product (R133). -/
def multiplyUnsigned (a b : Word) (fin : State → Result) (s : State) : Result :=
  let p := BitVec.ofNat 64 (a.toNat * b.toNat)
  fin (s.writeHiLo (p.extractLsb' 32 32) (p.extractLsb' 0 32))

/-- `SDIV`, quotient and remainder (R134): fixed where neither operand is negative, else as the run's parameter says
(log 6). Its arguments meet the condition of R134: the divisor is not 0 and the quotient fits. -/
def signedDivide (s : State) (a b : Word) : Word × Word :=
  if 0 ≤ a.toInt ∧ 0 < b.toInt then (BitVec.ofNat 32 (a.toNat / b.toNat), BitVec.ofNat 32 (a.toNat % b.toNat))
  else
    match s.cfg.sdiv with
    | .truncating => (BitVec.ofInt 32 (a.toInt.tdiv b.toInt), BitVec.ofInt 32 (a.toInt.tmod b.toInt))
    | .hostDefined => Config.signedDivision a b

/-- Unsigned quotient and remainder (R136). -/
def unsignedDivide (a b : Word) : Word × Word :=
  (BitVec.ofNat 32 (a.toNat / b.toNat), BitVec.ofNat 32 (a.toNat % b.toNat))

/-- `lo <- draw(32); hi <- draw(32)` (R135, R136; R38). -/
def drawHiLo (s : State) : State :=
  (s.writeHiLo (Config.draw32 (s.draws + 1)) (Config.draw32 s.draws)).afterDraws 2

/-- The machine's signed division (R135): a divisor of 0 draws both results, `-2^31 / -1` raises. -/
def divideSigned (a b : Word) (fin : State → Result) (s : State) : Result :=
  if b = 0#32 then fin (drawHiLo s)
  else if quotientOverflows a b then raise .overflow s
  else fin (s.writeHiLo (signedDivide s a b).2 (signedDivide s a b).1)

/-- The machine's unsigned division (R136): a divisor of 0 draws both results. -/
def divideUnsigned (a b : Word) (fin : State → Result) (s : State) : Result :=
  if b = 0#32 then fin (drawHiLo s)
  else fin (s.writeHiLo (unsignedDivide a b).2 (unsignedDivide a b).1)

/-! ## Meanings -/

/-- `add` (R123). -/
def execAdd (rd rs rt : Reg) (s : State) : Result :=
  setRegOrOverflow rd ((s.readReg rs).toInt + (s.readReg rt).toInt) done s

/-- `addu` (R124). -/
def execAddu (rd rs rt : Reg) (s : State) : Result := setReg rd (s.readReg rs + s.readReg rt) done s

/-- `addi` (R125). -/
def execAddi (rt rs : Reg) (imm : BitVec 16) (s : State) : Result :=
  setRegOrOverflow rt ((s.readReg rs).toInt + (signExtendImm imm).toInt) done s

/-- `addiu` (R126). -/
def execAddiu (rt rs : Reg) (imm : BitVec 16) (s : State) : Result :=
  setReg rt (s.readReg rs + signExtendImm imm) done s

/-- `sub` (R127). -/
def execSub (rd rs rt : Reg) (s : State) : Result :=
  setRegOrOverflow rd ((s.readReg rs).toInt - (s.readReg rt).toInt) done s

/-- `subu` (R128). -/
def execSubu (rd rs rt : Reg) (s : State) : Result := setReg rd (s.readReg rs - s.readReg rt) done s

/-- `mult` (R132). -/
def execMult (rs rt : Reg) (s : State) : Result := multiplySigned (s.readReg rs) (s.readReg rt) done s

/-- `multu` (R133). -/
def execMultu (rs rt : Reg) (s : State) : Result := multiplyUnsigned (s.readReg rs) (s.readReg rt) done s

/-- `div`, two operands (R135). -/
def execDiv (rs rt : Reg) (s : State) : Result := divideSigned (s.readReg rs) (s.readReg rt) done s

/-- `divu`, two operands (R136). -/
def execDivu (rs rt : Reg) (s : State) : Result := divideUnsigned (s.readReg rs) (s.readReg rt) done s

/-- `and` (R141). -/
def execAnd (rd rs rt : Reg) (s : State) : Result := setReg rd (s.readReg rs &&& s.readReg rt) done s

/-- `andi` (R142). -/
def execAndi (rd rs : Reg) (imm : BitVec 16) (s : State) : Result :=
  setReg rd (s.readReg rs &&& zeroExtendImm imm) done s

/-- `nor` (R143). -/
def execNor (rd rs rt : Reg) (s : State) : Result := setReg rd (~~~(s.readReg rs ||| s.readReg rt)) done s

/-- `or` (R145). -/
def execOr (rd rs rt : Reg) (s : State) : Result := setReg rd (s.readReg rs ||| s.readReg rt) done s

/-- `ori` (R146). -/
def execOri (rt rs : Reg) (imm : BitVec 16) (s : State) : Result :=
  setReg rt (s.readReg rs ||| zeroExtendImm imm) done s

/-- `xor` (R147). -/
def execXor (rd rs rt : Reg) (s : State) : Result := setReg rd (s.readReg rs ^^^ s.readReg rt) done s

/-- `xori` (R148). -/
def execXori (rt rs : Reg) (imm : BitVec 16) (s : State) : Result :=
  setReg rt (s.readReg rs ^^^ zeroExtendImm imm) done s

end Sys2Proof.Machine
end

