-- ==== Sys2Proof/Machine/Comparison.lean ====
section
/-! DEFINITION. Comparison machine instructions (43_comparison.md). -/

namespace Sys2Proof.Machine

/-- `x[rd] <-` 1 if the relation holds, else 0 (R195). -/
def setIf (rel : Relation) (rd : Reg) (a b : Word) (fin : State → Result) (s : State) : Result :=
  setReg rd (truthWord (relationHolds rel a b)) fin s

/-- `slt` (R203). -/
def execSlt (rd rs rt : Reg) (s : State) : Result := setIf .lt rd (s.readReg rs) (s.readReg rt) done s

/-- `sltu` (R204). -/
def execSltu (rd rs rt : Reg) (s : State) : Result := setIf .ltu rd (s.readReg rs) (s.readReg rt) done s

/-- `slti` (R205). -/
def execSlti (rt rs : Reg) (imm : BitVec 16) (s : State) : Result :=
  setIf .lt rt (s.readReg rs) (signExtendImm imm) done s

/-- `sltiu` (R206): the immediate is sign-extended, then compared as unsigned. -/
def execSltiu (rt rs : Reg) (imm : BitVec 16) (s : State) : Result :=
  setIf .ltu rt (s.readReg rs) (signExtendImm imm) done s

end Sys2Proof.Machine
end

