-- ==== Sys2Proof/Machine/Branch.lean ====
section
/-! DEFINITION. Branch and jump machine instructions (44_branch_jump.md). There is no delay slot (R215). -/

namespace Sys2Proof.Machine

/-- `pc <-` the branch target if the condition holds, else the next instruction (R215). -/
def branchIf (c : Bool) (offset : BitVec 16) (s : State) : Result :=
  .next (s.jump (if c then branchTarget s offset else s.nextPc))

/-- `x[r] <-` the address of the next instruction (R217). -/
def State.link (s : State) (r : Reg) : State := s.writeReg r s.nextPc

/-- A branch that links: register 31 is written whether or not it is taken (R217, log 31); the form that tests register
31 is refused (R226, R233). -/
def linkingBranch (rel : Relation) (rs : Reg) (offset : BitVec 16) (s : State) : Result :=
  if rs = 31#5 then .refused .linkSourceIsLink
  else branchIf (relationHolds rel (s.readReg rs) 0#32) offset (s.link 31#5)

/-- A branch on a condition flag: only coprocessor 1's is ever set, the others are refused (R219, R220). -/
def branchOnFlag (z : CopNum) (value : Bool) (offset : BitVec 16) (s : State) : Result :=
  if z ≠ 1#2 then .refused (.conditionFlagUnspecified z)
  else branchIf (s.readFlag 1#2 == value) offset s

/-- `bczt` (R219). -/
def execBczt (z : CopNum) (offset : BitVec 16) (s : State) : Result := branchOnFlag z true offset s

/-- `bczf` (R220). -/
def execBczf (z : CopNum) (offset : BitVec 16) (s : State) : Result := branchOnFlag z false offset s

/-- `beq` (R221). -/
def execBeq (rs rt : Reg) (offset : BitVec 16) (s : State) : Result :=
  branchIf (relationHolds .eq (s.readReg rs) (s.readReg rt)) offset s

/-- `bgez` (R225). -/
def execBgez (rs : Reg) (offset : BitVec 16) (s : State) : Result :=
  branchIf (relationHolds .ge (s.readReg rs) 0#32) offset s

/-- `bgezal` (R226). -/
def execBgezal (rs : Reg) (offset : BitVec 16) (s : State) : Result := linkingBranch .ge rs offset s

/-- `bgtz` (R229). -/
def execBgtz (rs : Reg) (offset : BitVec 16) (s : State) : Result :=
  branchIf (relationHolds .gt (s.readReg rs) 0#32) offset s

/-- `blez` (R232). -/
def execBlez (rs : Reg) (offset : BitVec 16) (s : State) : Result :=
  branchIf (relationHolds .le (s.readReg rs) 0#32) offset s

/-- `bltzal` (R233). -/
def execBltzal (rs : Reg) (offset : BitVec 16) (s : State) : Result := linkingBranch .lt rs offset s

/-- `bltz` (R236). -/
def execBltz (rs : Reg) (offset : BitVec 16) (s : State) : Result :=
  branchIf (relationHolds .lt (s.readReg rs) 0#32) offset s

/-- `bne` (R237). -/
def execBne (rs rt : Reg) (offset : BitVec 16) (s : State) : Result :=
  branchIf (relationHolds .ne (s.readReg rs) (s.readReg rt)) offset s

/-- `j` (R239). -/
def execJ (target : BitVec 26) (s : State) : Result := .next (s.jump (jumpTarget s target))

/-- `jal` (R240). -/
def execJal (target : BitVec 26) (s : State) : Result := .next ((s.link 31#5).jump (jumpTarget s target))

/-- `jalr` (R241): the form whose two registers are one is refused; the target is read before the link is written and is
not checked (R243, log 37). -/
def execJalr (rd rs : Reg) (s : State) : Result :=
  if rd = rs then .refused .jalrSameRegister else .next ((s.link rd).jump (s.readReg rs))

/-- `jr` (R242): the target is not checked (R243, log 37). -/
def execJr (rs : Reg) (s : State) : Result := .next (s.jump (s.readReg rs))

end Sys2Proof.Machine
end

