-- ==== Sys2Proof/Machine/Constant.lean ====
section
/-! DEFINITION. The constant-manipulating machine instruction (42_constant.md). -/

namespace Sys2Proof.Machine

/-- `lui` (R191). -/
def execLui (rt : Reg) (imm : BitVec 16) (s : State) : Result := setReg rt (upperImm imm) done s

end Sys2Proof.Machine
end

