-- ==== Sys2Proof/Machine/FloatingPoint.lean ====
section
/-! DEFINITION. Floating-point machine instructions (48_floating_point.md). Every one refuses a form that names an odd
register (R320); none raises (R321(f)). -/

namespace Sys2Proof.Machine

/-! ## Shared operations -/

/-- A single result into `fd`: a pattern, or some NaN, drawn (R321(d), log 14). `fd + 1` keeps its value (R320). -/
def settleSingle (fd : Reg) (result : Option Word) (s : State) : State :=
  match result with
  | some v => s.writeSingle fd v
  | none => (s.writeSingle fd (nanFrom32 (Config.draw32 s.draws))).afterDraws 1

/-- A double result into the pair at `fd`, likewise. -/
def settleDouble (fd : Reg) (result : Option DWord) (s : State) : State :=
  match result with
  | some v => s.writeDouble fd v
  | none => (s.writeDouble fd (nanFrom64 (Config.draw64 s.draws))).afterDraws 1

/-- The single a computation of the default `FP` gives, as a pattern. -/
def singleOf (bits : Option Nat) : Option Word := bits.map (BitVec.ofNat 32)

/-- The double a computation of the default `FP` gives, as a pattern. -/
def doubleOf (bits : Option Nat) : Option DWord := bits.map (BitVec.ofNat 64)

/-- `FP.add32` and its kin (R321). -/
def arithSingle (s : State) (op : FloatOp) (x y : Word) : Option Word :=
  match s.cfg.fp with
  | .ieee754 => singleOf (arithBits single op x.toNat y.toNat)
  | .hostDefined => some (Config.hostArith32 op x y)

/-- `FP.add64` and its kin (R321). -/
def arithDouble (s : State) (op : FloatOp) (x y : DWord) : Option DWord :=
  match s.cfg.fp with
  | .ieee754 => doubleOf (arithBits double op x.toNat y.toNat)
  | .hostDefined => some (Config.hostArith64 op x y)

/-- `FP.cvt_d_s` (R333). -/
def singleToDouble (s : State) (x : Word) : Option DWord :=
  match s.cfg.fp with
  | .ieee754 => doubleOf (convertBits single double x.toNat)
  | .hostDefined => some (Config.hostSingleToDouble x)

/-- `FP.cvt_s_d` (R335). -/
def doubleToSingle (s : State) (x : DWord) : Option Word :=
  match s.cfg.fp with
  | .ieee754 => singleOf (convertBits double single x.toNat)
  | .hostDefined => some (Config.hostDoubleToSingle x)

/-- `FP.cvt_d_w` (R334). -/
def integerToDouble (s : State) (x : Word) : Option DWord :=
  match s.cfg.fp with
  | .ieee754 => some (BitVec.ofNat 64 (integerBits double x.toInt))
  | .hostDefined => some (Config.hostIntToDouble x)

/-- `FP.cvt_s_w` (R336). -/
def integerToSingle (s : State) (x : Word) : Option Word :=
  match s.cfg.fp with
  | .ieee754 => some (BitVec.ofNat 32 (integerBits single x.toInt))
  | .hostDefined => some (Config.hostIntToSingle x)

/-- `cvt_w` of a single (R338, R349), whatever the other functions of `FP` are: `none` where the result is drawn. The
value of a pattern is that of its format (R322, log 35). -/
def singleToInteger (s : State) (x : Word) : Option Word := integerOf s.cfg.cvtW (single.valueOf x.toNat)

/-- `cvt_w` of a double, likewise (R337, R349, log 35). -/
def doubleToInteger (s : State) (x : DWord) : Option Word := integerOf s.cfg.cvtW (double.valueOf x.toNat)

/-- An integer result into `fd`: the integer, or `draw(32)` (R349). -/
def settleInteger (fd : Reg) (result : Option Word) (s : State) : State :=
  match result with
  | some v => s.writeSingle fd v
  | none => (s.writeSingle fd (Config.draw32 s.draws)).afterDraws 1

/-- `abs.s` on a pattern: the sign cleared; a NaN gives some NaN (R324, log 28). -/
def absoluteSingle (v : Word) : Option Word :=
  if isNan32 v then none else some ((0#1 ++ v.extractLsb' 0 31).cast rfl)

/-- `abs.d` on a pattern (R323, log 28). -/
def absoluteDouble (v : DWord) : Option DWord :=
  if isNan64 v then none else some ((0#1 ++ v.extractLsb' 0 63).cast rfl)

/-- `neg.s` on a pattern: the sign inverted; a NaN gives some NaN (R348, log 28). -/
def negateSingle (v : Word) : Option Word :=
  if isNan32 v then none else some ((~~~(v.extractLsb' 31 1) ++ v.extractLsb' 0 31).cast rfl)

/-- `neg.d` on a pattern (R347, log 28). -/
def negateDouble (v : DWord) : Option DWord :=
  if isNan64 v then none else some ((~~~(v.extractLsb' 63 1) ++ v.extractLsb' 0 63).cast rfl)

/-- A three-operand operation on singles. -/
def arithmeticSingle (op : FloatOp) (fd fs ft : Reg) (s : State) : Result :=
  unlessStop (evenStop [fd, fs, ft]) s
    (done (settleSingle fd (arithSingle s op (s.readSingle fs) (s.readSingle ft)) s))

/-- A three-operand operation on doubles. -/
def arithmeticDouble (op : FloatOp) (fd fs ft : Reg) (s : State) : Result :=
  unlessStop (evenStop [fd, fs, ft]) s
    (done (settleDouble fd (arithDouble s op (s.readDouble fs) (s.readDouble ft)) s))

/-- A comparison of singles writes `cc[1]` and nothing else (R354). -/
def compareSingle (rel : FloatRel) (fs ft : Reg) (s : State) : Result :=
  unlessStop (evenStop [fs, ft]) s
    (done (s.writeFlag 1#2 (flagSingle s rel (s.readSingle fs) (s.readSingle ft))))

/-- A comparison of doubles writes `cc[1]` and nothing else (R354). -/
def compareDouble (rel : FloatRel) (fs ft : Reg) (s : State) : Result :=
  unlessStop (evenStop [fs, ft]) s
    (done (s.writeFlag 1#2 (flagDouble s rel (s.readDouble fs) (s.readDouble ft))))

/-! ## Meanings -/

/-- `abs.d` (R323). -/
def execAbsD (fd fs : Reg) (s : State) : Result :=
  unlessStop (evenStop [fd, fs]) s (done (settleDouble fd (absoluteDouble (s.readDouble fs)) s))

/-- `abs.s` (R324). -/
def execAbsS (fd fs : Reg) (s : State) : Result :=
  unlessStop (evenStop [fd, fs]) s (done (settleSingle fd (absoluteSingle (s.readSingle fs)) s))

/-- `add.d` (R325). -/
def execAddD (fd fs ft : Reg) (s : State) : Result := arithmeticDouble .add fd fs ft s

/-- `add.s` (R326). -/
def execAddS (fd fs ft : Reg) (s : State) : Result := arithmeticSingle .add fd fs ft s

/-- `c.eq.d` (R327). -/
def execCEqD (fs ft : Reg) (s : State) : Result := compareDouble .eq fs ft s

/-- `c.eq.s` (R328). -/
def execCEqS (fs ft : Reg) (s : State) : Result := compareSingle .eq fs ft s

/-- `c.le.d` (R329). -/
def execCLeD (fs ft : Reg) (s : State) : Result := compareDouble .le fs ft s

/-- `c.le.s` (R330). -/
def execCLeS (fs ft : Reg) (s : State) : Result := compareSingle .le fs ft s

/-- `c.lt.d` (R331). -/
def execCLtD (fs ft : Reg) (s : State) : Result := compareDouble .lt fs ft s

/-- `c.lt.s` (R332). -/
def execCLtS (fs ft : Reg) (s : State) : Result := compareSingle .lt fs ft s

/-- `cvt.d.s` (R333). -/
def execCvtDS (fd fs : Reg) (s : State) : Result :=
  unlessStop (evenStop [fd, fs]) s (done (settleDouble fd (singleToDouble s (s.readSingle fs)) s))

/-- `cvt.d.w` (R334). -/
def execCvtDW (fd fs : Reg) (s : State) : Result :=
  unlessStop (evenStop [fd, fs]) s (done (settleDouble fd (integerToDouble s (s.readSingle fs)) s))

/-- `cvt.s.d` (R335). -/
def execCvtSD (fd fs : Reg) (s : State) : Result :=
  unlessStop (evenStop [fd, fs]) s (done (settleSingle fd (doubleToSingle s (s.readDouble fs)) s))

/-- `cvt.s.w` (R336). -/
def execCvtSW (fd fs : Reg) (s : State) : Result :=
  unlessStop (evenStop [fd, fs]) s (done (settleSingle fd (integerToSingle s (s.readSingle fs)) s))

/-- `cvt.w.d` (R337). -/
def execCvtWD (fd fs : Reg) (s : State) : Result :=
  unlessStop (evenStop [fd, fs]) s (done (settleInteger fd (doubleToInteger s (s.readDouble fs)) s))

/-- `cvt.w.s` (R338). -/
def execCvtWS (fd fs : Reg) (s : State) : Result :=
  unlessStop (evenStop [fd, fs]) s (done (settleInteger fd (singleToInteger s (s.readSingle fs)) s))

/-- `div.d` (R339). -/
def execDivD (fd fs ft : Reg) (s : State) : Result := arithmeticDouble .div fd fs ft s

/-- `div.s` (R340). -/
def execDivS (fd fs ft : Reg) (s : State) : Result := arithmeticSingle .div fd fs ft s

/-- `mov.d` (R343): the bits are copied, NaN patterns included. -/
def execMovD (fd fs : Reg) (s : State) : Result :=
  unlessStop (evenStop [fd, fs]) s (done (s.writeDouble fd (s.readDouble fs)))

/-- `mov.s` (R344): the bits are copied, NaN patterns included. -/
def execMovS (fd fs : Reg) (s : State) : Result :=
  unlessStop (evenStop [fd, fs]) s (done (s.writeSingle fd (s.readSingle fs)))

/-- `mul.d` (R345). -/
def execMulD (fd fs ft : Reg) (s : State) : Result := arithmeticDouble .mul fd fs ft s

/-- `mul.s` (R346). -/
def execMulS (fd fs ft : Reg) (s : State) : Result := arithmeticSingle .mul fd fs ft s

/-- `neg.d` (R347). -/
def execNegD (fd fs : Reg) (s : State) : Result :=
  unlessStop (evenStop [fd, fs]) s (done (settleDouble fd (negateDouble (s.readDouble fs)) s))

/-- `neg.s` (R348). -/
def execNegS (fd fs : Reg) (s : State) : Result :=
  unlessStop (evenStop [fd, fs]) s (done (settleSingle fd (negateSingle (s.readSingle fs)) s))

/-- `sub.d` (R352). -/
def execSubD (fd fs ft : Reg) (s : State) : Result := arithmeticDouble .sub fd fs ft s

/-- `sub.s` (R353). -/
def execSubS (fd fs ft : Reg) (s : State) : Result := arithmeticSingle .sub fd fs ft s

end Sys2Proof.Machine
end

