-- ==== Sys2Proof/Machine/Load.lean ====
section
/-! DEFINITION. Load machine instructions (45_load.md). -/

namespace Sys2Proof.Machine

/-- A plain load of one machine word: aligned to its size (20_memory.md R55), its address `Offset(Base)`. -/
def machineLoad (kind : LoadKind) (rt base : Reg) (offset : BitVec 16) (s : State) : Result :=
  loadReg kind (LoadKind.size kind) (effectiveAddress s base offset) rt done s

/-- `lb` (R257). -/
def execLb (rt base : Reg) (offset : BitVec 16) (s : State) : Result := machineLoad .byte rt base offset s

/-- `lbu` (R258). -/
def execLbu (rt base : Reg) (offset : BitVec 16) (s : State) : Result := machineLoad .byteUnsigned rt base offset s

/-- `lh` (R260). -/
def execLh (rt base : Reg) (offset : BitVec 16) (s : State) : Result := machineLoad .half rt base offset s

/-- `lhu` (R261). -/
def execLhu (rt base : Reg) (offset : BitVec 16) (s : State) : Result := machineLoad .halfUnsigned rt base offset s

/-- `lw` (R262). -/
def execLw (rt base : Reg) (offset : BitVec 16) (s : State) : Result := machineLoad .word rt base offset s

/-- `lwcz` (R263), every `z` (log 21). -/
def execLwcz (z : CopNum) (rt base : Reg) (offset : BitVec 16) (s : State) : Result :=
  loadCop z rt (effectiveAddress s base offset) done s

/-- `lwl` (R265). -/
def execLwl (rt base : Reg) (offset : BitVec 16) (s : State) : Result :=
  loadPartial .left (effectiveAddress s base offset) rt done s

/-- `lwr` (R266). -/
def execLwr (rt base : Reg) (offset : BitVec 16) (s : State) : Result :=
  loadPartial .right (effectiveAddress s base offset) rt done s

end Sys2Proof.Machine
end

