-- ==== Sys2Proof/Machine/Move.lean ====
section
/-! DEFINITION. Data movement machine instructions (47_data_movement.md). -/

namespace Sys2Proof.Machine

/-- `mfhi` (R301). -/
def execMfhi (rd : Reg) (s : State) : Result := setReg rd s.hi done s

/-- `mflo` (R302). -/
def execMflo (rd : Reg) (s : State) : Result := setReg rd s.lo done s

/-- `mthi` (R303): `lo` keeps its value. -/
def execMthi (rs : Reg) (s : State) : Result := done (s.writeHiLo (s.readReg rs) s.lo)

/-- `mtlo` (R304): `hi` keeps its value. -/
def execMtlo (rs : Reg) (s : State) : Result := done (s.writeHiLo s.hi (s.readReg rs))

/-- `mfcz` (R305), every `z` (log 21): the bits are copied, not converted. -/
def execMfcz (z : CopNum) (rt rd : Reg) (s : State) : Result := setReg rt (s.readCop z rd) done s

/-- `mtcz` (R307), every `z` (log 21): the general register is the source. -/
def execMtcz (z : CopNum) (rt rd : Reg) (s : State) : Result := done (s.writeCop z rd (s.readReg rt))

end Sys2Proof.Machine
end

