-- ==== Sys2Proof/Machine/Shift.lean ====
section
/-! DEFINITION. Shifts (41_shift_rotate.md). A constant distance is the `Sa` field (R178(a)), a variable one the low five
bits of a register (R178(b)). The field the constant shifts ignore is an argument no meaning reads (30_encoding.md
R107). -/

namespace Sys2Proof.Machine

/-- Shift left by `n`, zeros entering at bit 0 (R170, R171). -/
def shiftLeft (v : Word) (n : Nat) : Word := v <<< n

/-- Shift right by `n`, zeros entering at bit 31 (R174, R175). -/
def shiftRight (v : Word) (n : Nat) : Word := v >>> n

/-- Shift right by `n`, copies of bit 31 entering (R172, R173). -/
def shiftRightArithmetic (v : Word) (n : Nat) : Word := v.sshiftRight n

/-- `sll` (R170). -/
def execSll (rd rt : Reg) (sa _ign : BitVec 5) (s : State) : Result :=
  setReg rd (shiftLeft (s.readReg rt) sa.toNat) done s

/-- `sllv` (R171). -/
def execSllv (rd rt rs : Reg) (s : State) : Result :=
  setReg rd (shiftLeft (s.readReg rt) (distanceOf (s.readReg rs))) done s

/-- `sra` (R172). -/
def execSra (rd rt : Reg) (sa _ign : BitVec 5) (s : State) : Result :=
  setReg rd (shiftRightArithmetic (s.readReg rt) sa.toNat) done s

/-- `srav` (R173). -/
def execSrav (rd rt rs : Reg) (s : State) : Result :=
  setReg rd (shiftRightArithmetic (s.readReg rt) (distanceOf (s.readReg rs))) done s

/-- `srl` (R174). -/
def execSrl (rd rt : Reg) (sa _ign : BitVec 5) (s : State) : Result :=
  setReg rd (shiftRight (s.readReg rt) sa.toNat) done s

/-- `srlv` (R175). -/
def execSrlv (rd rt rs : Reg) (s : State) : Result :=
  setReg rd (shiftRight (s.readReg rt) (distanceOf (s.readReg rs))) done s

end Sys2Proof.Machine
end

