-- ==== Sys2Proof/Machine/Store.lean ====
section
/-! DEFINITION. Store machine instructions (46_store.md). -/

namespace Sys2Proof.Machine

/-- A plain store of `v` at `a`, aligned to its size (20_memory.md R55). -/
def storeValue (kind : StoreKind) (a v : Word) (fin : State → Result) (s : State) : Result :=
  storeCells (StoreKind.size kind) a (StoreKind.cells kind s.cfg.endian a v) fin s

/-- `sb` (R280). -/
def execSb (rt base : Reg) (offset : BitVec 16) (s : State) : Result :=
  storeValue .byte (effectiveAddress s base offset) (s.readReg rt) done s

/-- `sh` (R282). -/
def execSh (rt base : Reg) (offset : BitVec 16) (s : State) : Result :=
  storeValue .half (effectiveAddress s base offset) (s.readReg rt) done s

/-- `sw` (R283). -/
def execSw (rt base : Reg) (offset : BitVec 16) (s : State) : Result :=
  storeValue .word (effectiveAddress s base offset) (s.readReg rt) done s

/-- `swcz` (R284), every `z` (log 21). -/
def execSwcz (z : CopNum) (rt base : Reg) (offset : BitVec 16) (s : State) : Result :=
  storeValue .word (effectiveAddress s base offset) (s.readCop z rt) done s

/-- `swl` (R286). -/
def execSwl (rt base : Reg) (offset : BitVec 16) (s : State) : Result :=
  storePartial .left (effectiveAddress s base offset) (s.readReg rt) done s

/-- `swr` (R287). -/
def execSwr (rt base : Reg) (offset : BitVec 16) (s : State) : Result :=
  storePartial .right (effectiveAddress s base offset) (s.readReg rt) done s

end Sys2Proof.Machine
end

