-- ==== Sys2Proof/Machine/System.lean ====
section
/-! DEFINITION. `rfe`, `syscall`, `break`, `nop` and the system services (49_exception_trap_syscall.md). -/

namespace Sys2Proof.Machine

/-! ## The console (R376, logs 11 and 12) -/

/-- `host.out <- host.out ++ [e]` (R376). -/
def State.emit (s : State) (e : OutputEvent) : State := { s with out := s.out ++ [e] }

/-- The word the host answers a read service with: the next the run was given, or a free value. -/
def State.inputWord (s : State) : Word :=
  match s.inWords with
  | [] => Config.hostWord s.draws
  | w :: _ => w

/-- The state after the host has answered with a word. -/
def State.afterWord (s : State) : State :=
  match s.inWords with
  | [] => s.afterDraws 1
  | _ :: rest => { s with inWords := rest }

/-- The double the host answers service 7 with. -/
def State.inputDouble (s : State) : DWord :=
  match s.inDoubles with
  | [] => Config.hostDouble s.draws
  | d :: _ => d

/-- The state after the host has answered with a double. -/
def State.afterDouble (s : State) : State :=
  match s.inDoubles with
  | [] => s.afterDraws 1
  | _ :: rest => { s with inDoubles := rest }

/-- A line typed: none of its bytes is `0x00` or `0x0A` (R385). -/
def typedLine (bytes : List Byte) : List Byte := bytes.filter (fun b => b != 0x00#8 && b != 0x0A#8)

/-- The line the host answers service 8 with. -/
def State.inputLine (s : State) : List Byte :=
  match s.inLines with
  | [] => typedLine (Config.hostLine s.draws)
  | line :: _ => typedLine line

/-- The state after the host has given a line. -/
def State.afterLine (s : State) : State :=
  match s.inLines with
  | [] => s.afterDraws 1
  | _ :: rest => { s with inLines := rest }

/-! ## The services -/

/-- Service 1, print integer (R378). -/
def printInteger (s : State) : Result := done (s.emit (.printInt (s.readReg 4#5)))

/-- Service 2, print float (R379). -/
def printFloat (s : State) : Result := done (s.emit (.printFloat (s.readSingle 12#5)))

/-- Service 3, print double (R380). -/
def printDouble (s : State) : Result := done (s.emit (.printDouble (s.readDouble 12#5)))

/-- The bytes from `a` up to the first zero byte (R381): the reason to stop, if one of the bytes is not allocated or none
of `fuel` bytes is zero. `start` is where the string begins. -/
def stringAt (s : State) (start : Word) : Nat → Word → Except Stop (List Byte)
  | 0, _ => .error (.refuses (.endlessString start))
  | fuel + 1, a =>
    if s.classAt a = .unmapped then .error (.raises (.busError a))
    else if s.byteAt a = 0#8 then .ok []
    else
      match stringAt s start fuel (a + 1#32) with
      | .ok bs => .ok (s.byteAt a :: bs)
      | .error stop => .error stop

/-- Service 4, print string (R381): after `2^32` bytes every address has been read (log 32). -/
def printString (s : State) : Result :=
  match stringAt s (s.readReg 4#5) (2 ^ 32) (s.readReg 4#5) with
  | .ok bs => done (s.emit (.printString bs))
  | .error stop => stopWith stop s

/-- Service 5, read integer (R382). -/
def readInteger (s : State) : Result := done (s.afterWord.writeReg 2#5 s.inputWord)

/-- Service 6, read float (R383). -/
def readFloat (s : State) : Result := done (s.afterWord.writeSingle 0#5 s.inputWord)

/-- Service 7, read double (R384). -/
def readDoubleService (s : State) : Result := done (s.afterDouble.writeDouble 0#5 s.inputDouble)

/-- The check of the buffer of service 8, byte by byte from its start (R385, R407, log 23). -/
def bufferStop (s : State) : Nat → Word → Option Stop
  | 0, _ => none
  | n + 1, a =>
    match s.classAt a with
    | .unmapped => some (.raises (.busError a))
    | .text => some (.refuses (.storeToText a))
    | .data => bufferStop s n (a + 1#32)

/-- The string service 8 makes of a line for a length `n` of 2 or more (R385). -/
def clippedLine (line : List Byte) (n : Nat) : List Byte :=
  if n - 1 ≤ line.length then line.take (n - 1) else line ++ [0x0A#8]

/-- What service 8 leaves in a buffer of `n` bytes: the string, a null byte, and unspecified bytes, drawn from the count
`draws` on (R385, 93_implementation_defined.md V26). -/
def bufferBytes (str : List Byte) (n draws : Nat) : List Byte :=
  str ++ 0x00#8 :: (List.range (n - (str.length + 1))).map (fun i => Config.draw8 (draws + i))

/-- The buffer of `n` bytes at `x[4]` filled with a string (R385). -/
def fillBuffer (str : List Byte) (n : Nat) (s : State) : State :=
  (s.writeBytes ((bytesFrom (s.readReg 4#5) n).zip (bufferBytes str n s.draws))).afterDraws (n - (str.length + 1))

/-- Service 8, read string (R385): a length below 1 writes nothing, a length of 1 ignores the input; in both cases no
line is taken from `host.in` (DESIGN CHOICE, log 11: the note says that input is ignored, the pseudocode draws the line
before it looks at the length). -/
def readString (s : State) : Result :=
  let n := (s.readReg 5#5).toInt
  if n < 1 then done s
  else
    unlessStop (bufferStop s n.toNat (s.readReg 4#5)) s
      (if n = 1 then done (fillBuffer [] 1 s)
       else done (fillBuffer (clippedLine s.inputLine n.toNat) n.toNat s.afterLine))

/-- Service 10, exit (R386): the run ends and `pc` stays at the `syscall` (log 18). -/
def exitRun (s : State) : Result := .next { s with ended := true }

/-- Service 11, print character (R387): the low-order byte. -/
def printCharacter (s : State) : Result := done (s.emit (.printChar ((s.readReg 4#5).extractLsb' 0 8)))

/-- Service 12, read character (R388). -/
def readCharacter (s : State) : Result := done (s.afterWord.writeReg 2#5 s.inputWord)

/-- The service of a code (R377), read as all 32 bits; 42, 43 and 44 are not provided by SPIM (R389 to R391, log 36) and
every code without a service raises (R392). -/
def service (code : Word) (s : State) : Result :=
  match code with
  | 1#32 => printInteger s
  | 2#32 => printFloat s
  | 3#32 => printDouble s
  | 4#32 => printString s
  | 5#32 => readInteger s
  | 6#32 => readFloat s
  | 7#32 => readDoubleService s
  | 8#32 => readString s
  | 10#32 => exitRun s
  | 11#32 => printCharacter s
  | 12#32 => readCharacter s
  | _ => raise (.unknownSyscall code) s

/-! ## Meanings -/

/-- `rfe` (R370): `pc` advances as for any other instruction. -/
def execRfe (s : State) : Result := returnFromException done s

/-- `syscall` (R371): the service whose code is in `x[2]`. -/
def execSyscall (s : State) : Result := service (s.readReg 2#5) s

/-- `break n` (R372). -/
def execBreak (code : BitVec 20) (s : State) : Result := raise (.brk code) s

/-- `nop` (R373). -/
def execNop (s : State) : Result := done s

end Sys2Proof.Machine
end

