-- ==== Sys2Proof/Machine/Dispatch.lean ====
section
/-! DEFINITION. The meaning of every machine instruction: one arm for each row of spec/opcode_table.json. -/

namespace Sys2Proof.Machine

def exec (i : Instr) (s : State) : Host.Outcome State Fault Refusal :=
  match i with
  -- Arithmetic and logical
  | .add rd rs rt => Sys2Proof.Machine.execAdd rd rs rt s
  | .addu rd rs rt => Sys2Proof.Machine.execAddu rd rs rt s
  | .addi rt rs imm => Sys2Proof.Machine.execAddi rt rs imm s
  | .addiu rt rs imm => Sys2Proof.Machine.execAddiu rt rs imm s
  | .sub rd rs rt => Sys2Proof.Machine.execSub rd rs rt s
  | .subu rd rs rt => Sys2Proof.Machine.execSubu rd rs rt s
  | .mult rs rt => Sys2Proof.Machine.execMult rs rt s
  | .multu rs rt => Sys2Proof.Machine.execMultu rs rt s
  | .div rs rt => Sys2Proof.Machine.execDiv rs rt s
  | .divu rs rt => Sys2Proof.Machine.execDivu rs rt s
  | .and rd rs rt => Sys2Proof.Machine.execAnd rd rs rt s
  | .andi rd rs imm => Sys2Proof.Machine.execAndi rd rs imm s
  | .nor rd rs rt => Sys2Proof.Machine.execNor rd rs rt s
  | .or rd rs rt => Sys2Proof.Machine.execOr rd rs rt s
  | .ori rt rs imm => Sys2Proof.Machine.execOri rt rs imm s
  | .xor rd rs rt => Sys2Proof.Machine.execXor rd rs rt s
  | .xori rt rs imm => Sys2Proof.Machine.execXori rt rs imm s
  -- Shifts
  | .sll rd rt sa ign => Sys2Proof.Machine.execSll rd rt sa ign s
  | .sllv rd rt rs => Sys2Proof.Machine.execSllv rd rt rs s
  | .sra rd rt sa ign => Sys2Proof.Machine.execSra rd rt sa ign s
  | .srav rd rt rs => Sys2Proof.Machine.execSrav rd rt rs s
  | .srl rd rt sa ign => Sys2Proof.Machine.execSrl rd rt sa ign s
  | .srlv rd rt rs => Sys2Proof.Machine.execSrlv rd rt rs s
  -- Constants
  | .lui rt imm => Sys2Proof.Machine.execLui rt imm s
  -- Comparison
  | .slt rd rs rt => Sys2Proof.Machine.execSlt rd rs rt s
  | .sltu rd rs rt => Sys2Proof.Machine.execSltu rd rs rt s
  | .slti rt rs imm => Sys2Proof.Machine.execSlti rt rs imm s
  | .sltiu rt rs imm => Sys2Proof.Machine.execSltiu rt rs imm s
  -- Branches and jumps
  | .bczt z offset => Sys2Proof.Machine.execBczt z offset s
  | .bczf z offset => Sys2Proof.Machine.execBczf z offset s
  | .beq rs rt offset => Sys2Proof.Machine.execBeq rs rt offset s
  | .bgez rs offset => Sys2Proof.Machine.execBgez rs offset s
  | .bgezal rs offset => Sys2Proof.Machine.execBgezal rs offset s
  | .bgtz rs offset => Sys2Proof.Machine.execBgtz rs offset s
  | .blez rs offset => Sys2Proof.Machine.execBlez rs offset s
  | .bltzal rs offset => Sys2Proof.Machine.execBltzal rs offset s
  | .bltz rs offset => Sys2Proof.Machine.execBltz rs offset s
  | .bne rs rt offset => Sys2Proof.Machine.execBne rs rt offset s
  | .j target => Sys2Proof.Machine.execJ target s
  | .jal target => Sys2Proof.Machine.execJal target s
  | .jalr rd rs => Sys2Proof.Machine.execJalr rd rs s
  | .jr rs => Sys2Proof.Machine.execJr rs s
  -- Loads
  | .lb rt base offset => Sys2Proof.Machine.execLb rt base offset s
  | .lbu rt base offset => Sys2Proof.Machine.execLbu rt base offset s
  | .lh rt base offset => Sys2Proof.Machine.execLh rt base offset s
  | .lhu rt base offset => Sys2Proof.Machine.execLhu rt base offset s
  | .lw rt base offset => Sys2Proof.Machine.execLw rt base offset s
  | .lwcz z rt base offset => Sys2Proof.Machine.execLwcz z rt base offset s
  | .lwl rt base offset => Sys2Proof.Machine.execLwl rt base offset s
  | .lwr rt base offset => Sys2Proof.Machine.execLwr rt base offset s
  -- Stores
  | .sb rt base offset => Sys2Proof.Machine.execSb rt base offset s
  | .sh rt base offset => Sys2Proof.Machine.execSh rt base offset s
  | .sw rt base offset => Sys2Proof.Machine.execSw rt base offset s
  | .swcz z rt base offset => Sys2Proof.Machine.execSwcz z rt base offset s
  | .swl rt base offset => Sys2Proof.Machine.execSwl rt base offset s
  | .swr rt base offset => Sys2Proof.Machine.execSwr rt base offset s
  -- Data movement
  | .mfhi rd => Sys2Proof.Machine.execMfhi rd s
  | .mflo rd => Sys2Proof.Machine.execMflo rd s
  | .mthi rs => Sys2Proof.Machine.execMthi rs s
  | .mtlo rs => Sys2Proof.Machine.execMtlo rs s
  | .mfcz z rt rd => Sys2Proof.Machine.execMfcz z rt rd s
  | .mtcz z rt rd => Sys2Proof.Machine.execMtcz z rt rd s
  -- Floating point
  | .absD fd fs => Sys2Proof.Machine.execAbsD fd fs s
  | .absS fd fs => Sys2Proof.Machine.execAbsS fd fs s
  | .addD fd fs ft => Sys2Proof.Machine.execAddD fd fs ft s
  | .addS fd fs ft => Sys2Proof.Machine.execAddS fd fs ft s
  | .cEqD fs ft => Sys2Proof.Machine.execCEqD fs ft s
  | .cEqS fs ft => Sys2Proof.Machine.execCEqS fs ft s
  | .cLeD fs ft => Sys2Proof.Machine.execCLeD fs ft s
  | .cLeS fs ft => Sys2Proof.Machine.execCLeS fs ft s
  | .cLtD fs ft => Sys2Proof.Machine.execCLtD fs ft s
  | .cLtS fs ft => Sys2Proof.Machine.execCLtS fs ft s
  | .cvtDS fd fs => Sys2Proof.Machine.execCvtDS fd fs s
  | .cvtDW fd fs => Sys2Proof.Machine.execCvtDW fd fs s
  | .cvtSD fd fs => Sys2Proof.Machine.execCvtSD fd fs s
  | .cvtSW fd fs => Sys2Proof.Machine.execCvtSW fd fs s
  | .cvtWD fd fs => Sys2Proof.Machine.execCvtWD fd fs s
  | .cvtWS fd fs => Sys2Proof.Machine.execCvtWS fd fs s
  | .divD fd fs ft => Sys2Proof.Machine.execDivD fd fs ft s
  | .divS fd fs ft => Sys2Proof.Machine.execDivS fd fs ft s
  | .movD fd fs => Sys2Proof.Machine.execMovD fd fs s
  | .movS fd fs => Sys2Proof.Machine.execMovS fd fs s
  | .mulD fd fs ft => Sys2Proof.Machine.execMulD fd fs ft s
  | .mulS fd fs ft => Sys2Proof.Machine.execMulS fd fs ft s
  | .negD fd fs => Sys2Proof.Machine.execNegD fd fs s
  | .negS fd fs => Sys2Proof.Machine.execNegS fd fs s
  | .subD fd fs ft => Sys2Proof.Machine.execSubD fd fs ft s
  | .subS fd fs ft => Sys2Proof.Machine.execSubS fd fs ft s
  -- Exceptions and services
  | .rfe => Sys2Proof.Machine.execRfe s
  | .syscall => Sys2Proof.Machine.execSyscall s
  | .brk code => Sys2Proof.Machine.execBreak code s
  | .nop => Sys2Proof.Machine.execNop s

end Sys2Proof.Machine
end

