-- ==== Sys2Proof/Machine/Fetch.lean ====
section
/-! DEFINITION. Instruction fetch (20_memory.md R60), and the placing of an instruction where the next step fetches. -/

namespace Sys2Proof.Machine

/-- The checks of a fetch in the order of 60_exceptions.md R407: alignment, allocation, a `text` region. -/
def fetchStop (s : State) : Option Stop :=
  match readStop s 4 s.pc (bytesFrom s.pc 4) with
  | some stop => some stop
  | none => if s.anyOf .data (bytesFrom s.pc 4) then some (.refuses (.fetchFromData s.pc)) else none

/-- The word executed at a step, in the byte order of data (R52, R60). -/
def State.fetchWord (s : State) : Word := s.wordAt s.pc

/-- A run about to execute `word`: its bytes stand at `pc`, made a multiple of 4, in a `text` region, and the run has not
ended (log 17). -/
def placeInstruction (s : State) (word : Word) : State :=
  let at4 := s.pc &&& 0xFFFFFFFC#32
  let ready : State := { s with pc := at4, ended := false }
  let isText := (bytesFrom at4 4).all (fun a => ready.classAt a == .text)
  let mapped : State :=
    if isText then ready
    else { ready with cfg := { ready.cfg with memmap := ⟨at4.toNat, 4, .text⟩ :: ready.cfg.memmap } }
  mapped.writeBytes (wordCells mapped.cfg.endian at4 word)

end Sys2Proof.Machine
end

