-- ==== Sys2Proof/Machine/Step.lean ====
section
/-! DEFINITION. One step of the machine (10_state.md R24). -/

namespace Sys2Proof.Machine

/-- One step (R24): the checks of the fetch, the decoder, the instruction, in the order of 60_exceptions.md R407. A run
that service 10 has ended takes no step (R386, R418, log 18). -/
def step (s : State) : Host.Outcome State Fault Refusal :=
  if s.ended then .fault .runEnded
  else
    unlessStop (fetchStop s) s
      (match decodeWord s.fetchWord with
       | .ok i => exec i s
       | .error _ => raise (.reservedInstruction s.fetchWord) s)

/-- `s` with an instruction of the opcode table stored where `step` fetches next: every bit from `nbits` on is 0
(log 17). -/
def State.withFetchWord (s : State) (nbits w : Nat) : State := placeInstruction s (BitVec.ofNat 32 (w % 2 ^ nbits))

end Sys2Proof.Machine
end

