-- ==== Sys2Proof/Machine/Pseudo.lean ====
section
/-! DEFINITION. The pseudoinstructions (30_encoding.md R110) and the general forms that R109 makes pseudoinstructions, each
one step (10_state.md R38, log 30). They are built from the operations of the machine instructions. -/

namespace Sys2Proof.Machine

/-! ## How a pseudoinstruction ends (R38) -/

/-- `x[1] <- draw(32)`, except where `x[1]` is a destination (R38). -/
def scratchAt (dests : List Reg) (s : State) : State :=
  if dests.contains 1#5 then s else (s.writeReg 1#5 (Config.draw32 s.draws)).afterDraws 1

/-- The address of the statement after a pseudoinstruction of `len` words (R38). -/
def State.nextStatement (s : State) (len : Nat) : Word := s.pc + BitVec.ofNat 32 (4 * len)

/-- The end of a pseudoinstruction of `len` words that writes the general registers `dests` (R38). -/
def endPseudo (len : Nat) (dests : List Reg) (s : State) : Result :=
  .next ((scratchAt dests s).jump (s.nextStatement len))

/-- The end of a pseudoinstruction that works through the multiply and divide unit: `hi` and `lo` are drawn too (R38). -/
def endThroughHiLo (len : Nat) (dests : List Reg) (s : State) : Result := endPseudo len dests (drawHiLo s)

/-- The end of a branch pseudoinstruction: the label if the condition holds, else the next statement (R215, R38). -/
def endBranch (len : Nat) (c : Bool) (label : Word) (s : State) : Result :=
  .next ((scratchAt [] s).jump (if c then label else s.nextStatement len))

/-! ## Arithmetic and logical -/

/-- `abs`, `neg`, `negu`, `not`, `move` (R122, R139, R140, R144, R300). -/
def pseudoUnary (op : UnaryOp) (rdest : Reg) (a : Word) (fin : State → Result) (s : State) : Result :=
  match op with
  | .abs => setRegOrOverflow rdest (if a.toInt < 0 then -a.toInt else a.toInt) fin s
  | .neg => setRegOrOverflow rdest (-a.toInt) fin s
  | .negu => setReg rdest (0 - a) fin s
  | .not => setReg rdest (~~~a) fin s
  | .move => setReg rdest a fin s

/-- `mul`, `mulo`, `mulou`, `div`, `divu`, `rem`, `remu` (R129, R130, R131, R137, R138, R149, R150). -/
def pseudoMulDiv (op : MulDivOp) (rdest : Reg) (a b : Word) (fin : State → Result) (s : State) : Result :=
  match op with
  | .mul => setReg rdest (a * b) fin s
  | .mulo => setRegOrOverflow rdest (a.toInt * b.toInt) fin s
  | .mulou =>
    if overflowsUnsigned (a.toNat * b.toNat) then raise .overflow s
    else setReg rdest (BitVec.ofNat 32 (a.toNat * b.toNat)) fin s
  | .div =>
    if b = 0#32 then raise .divideByZero s
    else if quotientOverflows a b then raise .overflow s
    else setReg rdest (signedDivide s a b).1 fin s
  | .divu => if b = 0#32 then raise .divideByZero s else setReg rdest (unsignedDivide a b).1 fin s
  | .rem =>
    if b = 0#32 then raise .divideByZero s
    else if quotientOverflows a b then raise .overflow s
    else setReg rdest (signedDivide s a b).2 fin s
  | .remu => if b = 0#32 then raise .divideByZero s else setReg rdest (unsignedDivide a b).2 fin s

/-- A machine operation in general form, its second operand the value `b` (30_encoding.md R109). -/
def generalOperation (op : AluOp) (rdest : Reg) (a b : Word) (fin : State → Result) (s : State) : Result :=
  match op with
  | .add => setRegOrOverflow rdest (a.toInt + b.toInt) fin s
  | .addu => setReg rdest (a + b) fin s
  | .sub => setRegOrOverflow rdest (a.toInt - b.toInt) fin s
  | .subu => setReg rdest (a - b) fin s
  | .and => setReg rdest (a &&& b) fin s
  | .or => setReg rdest (a ||| b) fin s
  | .xor => setReg rdest (a ^^^ b) fin s
  | .nor => setReg rdest (~~~(a ||| b)) fin s
  | .sllv => setReg rdest (shiftLeft a (distanceOf b)) fin s
  | .srlv => setReg rdest (shiftRight a (distanceOf b)) fin s
  | .srav => setReg rdest (shiftRightArithmetic a (distanceOf b)) fin s

/-- `mult`, `multu`, `div`, `divu` of two operands in general form (30_encoding.md R109). -/
def generalHiLoOperation (op : HiLoOp) (a b : Word) (fin : State → Result) (s : State) : Result :=
  match op with
  | .mult => multiplySigned a b fin s
  | .multu => multiplyUnsigned a b fin s
  | .div => divideSigned a b fin s
  | .divu => divideUnsigned a b fin s

/-! ## Double-words (45_load.md R259, 46_store.md R281, 48_floating_point.md R341, R350) -/

/-- The checks of the two word reads of a double-word at `a` (20_memory.md R57, 60_exceptions.md R407, log 22), that at `a`
first. DESIGN CHOICE, log 41: so too at `0xFFFFFFFC`, where `a + 4` is 0. -/
def readPairStop (s : State) (a : Word) : Option Stop :=
  firstStop (readStop s 4 a (bytesFrom a 4)) (readStop s 4 (a + 4#32) (bytesFrom (a + 4#32) 4))

/-- The checks of the two word writes of a double-word at `a`, both before either is made, that at `a` first. DESIGN
CHOICE, log 41: so too at `0xFFFFFFFC`, where `a + 4` is 0. -/
def writePairStop (s : State) (a : Word) : Option Stop :=
  firstStop (writeStop s 4 a (bytesFrom a 4)) (writeStop s 4 (a + 4#32) (bytesFrom (a + 4#32) 4))

/-- Two words stored at `a` and `a + 4` (R281, R350). -/
def storePair (a : Word) (w0 w1 : Word) (fin : State → Result) (s : State) : Result :=
  unlessStop (writePairStop s a) s
    (fin ((s.writeBytes (wordCells s.cfg.endian a w0)).writeBytes (wordCells s.cfg.endian (a + 4#32) w1)))

/-- `ld` (R259): the word at the lower address goes to the lower register. -/
def pseudoLd (a : Word) (rdest : Reg) (fin : State → Result) (s : State) : Result :=
  unlessStop (readPairStop s a) s (fin ((s.writeReg rdest (s.wordAt a)).writeReg (rdest + 1#5) (s.wordAt (a + 4#32))))

/-- `l.d` (R341): the double is assembled by `ENDIAN`. -/
def pseudoLdFloat (a : Word) (frdest : Reg) (fin : State → Result) (s : State) : Result :=
  unlessStop (readPairStop s a) s
    (fin (s.writeDouble frdest
      (match s.cfg.endian with
       | .little => (s.wordAt (a + 4#32) ++ s.wordAt a).cast rfl
       | .big => (s.wordAt a ++ s.wordAt (a + 4#32)).cast rfl)))

/-- `s.d` (R350): the mirror of `l.d`. -/
def pseudoSdFloat (a : Word) (frdest : Reg) (fin : State → Result) (s : State) : Result :=
  match s.cfg.endian with
  | .little => storePair a (s.readSingle frdest) (s.readSingle (frdest + 1#5)) fin s
  | .big => storePair a (s.readSingle (frdest + 1#5)) (s.readSingle frdest) fin s

/-! ## The step of a pseudoinstruction -/

/-- The reason a pseudoinstruction's form is refused, if any: a constant out of range, register 31 as a pair, an odd
floating-point register (60_exceptions.md R406). -/
def formStop (p : Pseudo) : Option Stop :=
  match p with
  | .unary _ _ _ | .b _ | .beqz _ _ | .bnez _ _ => none
  | .mulDiv _ _ _ c | .rol _ _ c | .ror _ _ c | .set _ _ _ c | .branch _ _ c _ => src2Stop c
  | .li _ c | .generalAlu _ _ _ c | .generalHiLo _ _ c => constantStop c
  | .ld r a | .sd r a => firstStop (pairStop r) (addressStop a)
  | .lD r a | .lS r a | .sD r a | .sS r a => firstStop (evenStop [r]) (addressStop a)
  | .mfc1D r f => firstStop (pairStop r) (evenStop [f])
  | .la _ a | .ulh _ a | .ulhu _ a | .ulw _ a | .ush _ a | .usw _ a | .generalLoad _ _ a | .generalLoadPartial _ _ a
  | .generalLoadCop _ _ a | .generalStore _ _ a | .generalStorePartial _ _ a | .generalStoreCop _ _ a => addressStop a

/-- The effect of a pseudoinstruction whose form has a meaning. -/
def pseudoEffect (len : Nat) (p : Pseudo) (s : State) : Result :=
  match p with
  | .unary op rdest rsrc => pseudoUnary op rdest (s.readReg rsrc) (endPseudo len [rdest]) s
  | .mulDiv op rdest rsrc1 src2 =>
    pseudoMulDiv op rdest (s.readReg rsrc1) (valueOf s src2) (endThroughHiLo len [rdest]) s
  | .rol rdest rsrc1 src2 =>
    setReg rdest ((s.readReg rsrc1).rotateLeft ((valueOf s src2).toNat % 32)) (endPseudo len [rdest]) s
  | .ror rdest rsrc1 src2 =>
    setReg rdest ((s.readReg rsrc1).rotateRight ((valueOf s src2).toNat % 32)) (endPseudo len [rdest]) s
  | .li rdest imm => setReg rdest (patternOf imm) (endPseudo len [rdest]) s
  | .set rel rdest rsrc1 src2 => setIf rel rdest (s.readReg rsrc1) (valueOf s src2) (endPseudo len [rdest]) s
  | .b label => endBranch len true label s
  | .beqz rsrc label => endBranch len (relationHolds .eq (s.readReg rsrc) 0#32) label s
  | .bnez rsrc label => endBranch len (relationHolds .ne (s.readReg rsrc) 0#32) label s
  | .branch rel rsrc1 src2 label => endBranch len (relationHolds rel (s.readReg rsrc1) (valueOf s src2)) label s
  | .la rdest address => setReg rdest (addressOf s address) (endPseudo len [rdest]) s
  | .ld rdest address => pseudoLd (addressOf s address) rdest (endPseudo len [rdest, rdest + 1#5]) s
  | .sd rsrc address =>
    storePair (addressOf s address) (s.readReg rsrc) (s.readReg (rsrc + 1#5)) (endPseudo len []) s
  | .ulh rdest address => loadReg .half 1 (addressOf s address) rdest (endPseudo len [rdest]) s
  | .ulhu rdest address => loadReg .halfUnsigned 1 (addressOf s address) rdest (endPseudo len [rdest]) s
  | .ulw rdest address => loadReg .word 1 (addressOf s address) rdest (endPseudo len [rdest]) s
  | .ush rsrc address => storeUnaligned .half (addressOf s address) (s.readReg rsrc) (endPseudo len []) s
  | .usw rsrc address => storeUnaligned .word (addressOf s address) (s.readReg rsrc) (endPseudo len []) s
  | .mfc1D rdest frsrc1 =>
    endPseudo len [rdest, rdest + 1#5]
      ((s.writeReg rdest (s.readSingle frsrc1)).writeReg (rdest + 1#5) (s.readSingle (frsrc1 + 1#5)))
  | .lD frdest address => pseudoLdFloat (addressOf s address) frdest (endPseudo len []) s
  | .lS frdest address => loadCop 1#2 frdest (addressOf s address) (endPseudo len []) s
  | .sD frdest address => pseudoSdFloat (addressOf s address) frdest (endPseudo len []) s
  | .sS frdest address => storeValue .word (addressOf s address) (s.readSingle frdest) (endPseudo len []) s
  | .generalAlu op rdest rsrc1 c =>
    generalOperation op rdest (s.readReg rsrc1) (patternOf c) (endPseudo len [rdest]) s
  | .generalHiLo op rsrc1 c => generalHiLoOperation op (s.readReg rsrc1) (patternOf c) (endPseudo len []) s
  | .generalLoad kind rdest address =>
    loadReg kind (LoadKind.size kind) (addressOf s address) rdest (endPseudo len [rdest]) s
  | .generalLoadPartial side rdest address =>
    loadPartial side (addressOf s address) rdest (endPseudo len [rdest]) s
  | .generalLoadCop z rt address => loadCop z rt (addressOf s address) (endPseudo len []) s
  | .generalStore kind rsrc address =>
    storeValue kind (addressOf s address) (s.readReg rsrc) (endPseudo len []) s
  | .generalStorePartial side rsrc address =>
    storePartial side (addressOf s address) (s.readReg rsrc) (endPseudo len []) s
  | .generalStoreCop z rt address => storeValue .word (addressOf s address) (s.readCop z rt) (endPseudo len []) s

/-- A pseudoinstruction of `len` words, one step (R38): `len` is `PSEUDO_LEN` of its form, which the spec leaves open
(log 10). -/
def execPseudo (len : Nat) (p : Pseudo) (s : State) : Result := unlessStop (formStop p) s (pseudoEffect len p s)

end Sys2Proof.Machine
end

