-- ==== Sys2Proof/Machine/Assembly.lean ====
section
/-! DEFINITION. What the assembler does to a statement (30_encoding.md R97, R98, R108, R109) and one step of a program of
statements (log 38). -/

namespace Sys2Proof.Machine

/-! ## Fields the assembler computes -/

/-- The `Offset` of a machine branch at `pc` to a label (30_encoding.md R97): the distance from `BRANCH_BASE` in
instructions; a label out of reach is rejected. -/
def branchOffset (s : State) (label : Word) : Except Stop (BitVec 16) :=
  let distance := (label - branchBase s).toInt
  if distance % 4 = 0 ∧ -131072 ≤ distance ∧ distance ≤ 131068 then .ok (BitVec.ofInt 16 (distance / 4))
  else .error (.refuses (.labelOutOfRange label))

/-- The `Target` of `j` or `jal` at `pc` to a label (30_encoding.md R98); a label out of reach is rejected. -/
def jumpField (s : State) (label : Word) : Except Stop (BitVec 26) :=
  if label.extractLsb' 28 4 = (s.pc + 4).extractLsb' 28 4 ∧ label.extractLsb' 0 2 = 0 then .ok (label.extractLsb' 2 26)
  else .error (.refuses (.labelOutOfRange label))

/-- The low 16 bits of a constant, as a field holds them. -/
def immOf (c : Int) : BitVec 16 := (patternOf c).extractLsb' 0 16

/-- A constant fits a field that is sign-extended (R96, 92_eei_decisions.md D19). One out of range fits no field: its
statement is the pseudoinstruction, which is refused (60_exceptions.md R406). -/
def fitsSigned (c : Int) : Bool := constantInRange c && signExtendImm (immOf c) == patternOf c

/-- A constant fits a field that is zero-extended (R96, D19), likewise. -/
def fitsUnsigned (c : Int) : Bool := constantInRange c && zeroExtendImm (immOf c) == patternOf c

/-! ## General forms (R109) -/

/-- What a statement assembles to: a machine instruction, or a pseudoinstruction of the given length. -/
def machineOr (fits : Bool) (i : Instr) (len : Nat) (p : Pseudo) : Statement :=
  if fits then .machine i else .pseudo len p

/-- A three-operand operation in general form (R109): a register gives the machine instruction, a constant its immediate
form where it has one and the constant fits, else a pseudoinstruction. -/
def assembleAlu (op : AluOp) (rd rs : Reg) (src2 : Src2) (len : Nat) : Statement :=
  match op, src2 with
  | .add, .reg rt => .machine (.add rd rs rt)
  | .addu, .reg rt => .machine (.addu rd rs rt)
  | .sub, .reg rt => .machine (.sub rd rs rt)
  | .subu, .reg rt => .machine (.subu rd rs rt)
  | .and, .reg rt => .machine (.and rd rs rt)
  | .or, .reg rt => .machine (.or rd rs rt)
  | .xor, .reg rt => .machine (.xor rd rs rt)
  | .nor, .reg rt => .machine (.nor rd rs rt)
  | .sllv, .reg rt => .machine (.sllv rd rs rt)
  | .srlv, .reg rt => .machine (.srlv rd rs rt)
  | .srav, .reg rt => .machine (.srav rd rs rt)
  | .add, .const c => machineOr (fitsSigned c) (.addi rd rs (immOf c)) len (.generalAlu .add rd rs c)
  | .addu, .const c => machineOr (fitsSigned c) (.addiu rd rs (immOf c)) len (.generalAlu .addu rd rs c)
  | .and, .const c => machineOr (fitsUnsigned c) (.andi rd rs (immOf c)) len (.generalAlu .and rd rs c)
  | .or, .const c => machineOr (fitsUnsigned c) (.ori rd rs (immOf c)) len (.generalAlu .or rd rs c)
  | .xor, .const c => machineOr (fitsUnsigned c) (.xori rd rs (immOf c)) len (.generalAlu .xor rd rs c)
  | .sub, .const c => .pseudo len (.generalAlu .sub rd rs c)
  | .subu, .const c => .pseudo len (.generalAlu .subu rd rs c)
  | .nor, .const c => .pseudo len (.generalAlu .nor rd rs c)
  | .sllv, .const c => .pseudo len (.generalAlu .sllv rd rs c)
  | .srlv, .const c => .pseudo len (.generalAlu .srlv rd rs c)
  | .srav, .const c => .pseudo len (.generalAlu .srav rd rs c)

/-- `slt` in general form (R109). -/
def assembleSlt (rd rs : Reg) (src2 : Src2) (len : Nat) : Statement :=
  match src2 with
  | .reg rt => .machine (.slt rd rs rt)
  | .const c => machineOr (fitsSigned c) (.slti rd rs (immOf c)) len (.set .lt rd rs (.const c))

/-- `sltu` in general form (R109). -/
def assembleSltu (rd rs : Reg) (src2 : Src2) (len : Nat) : Statement :=
  match src2 with
  | .reg rt => .machine (.sltu rd rs rt)
  | .const c => machineOr (fitsSigned c) (.sltiu rd rs (immOf c)) len (.set .ltu rd rs (.const c))

/-- `mult`, `multu` and the two-operand divisions in general form (R109). -/
def assembleHiLo (op : HiLoOp) (rs : Reg) (src2 : Src2) (len : Nat) : Statement :=
  match op, src2 with
  | .mult, .reg rt => .machine (.mult rs rt)
  | .multu, .reg rt => .machine (.multu rs rt)
  | .div, .reg rt => .machine (.div rs rt)
  | .divu, .reg rt => .machine (.divu rs rt)
  | op, .const c => .pseudo len (.generalHiLo op rs c)

/-- `beq` with a `Src2` (44_branch_jump.md R244), at the `pc` of the state. -/
def assembleBeq (s : State) (rs : Reg) (src2 : Src2) (label : Word) (len : Nat) : Except Stop Statement :=
  match src2 with
  | .reg rt => (branchOffset s label).map (fun offset => .machine (.beq rs rt offset))
  | .const c => .ok (.pseudo len (.branch .eq rs (.const c) label))

/-- `bne` with a `Src2` (44_branch_jump.md R244), at the `pc` of the state. -/
def assembleBne (s : State) (rs : Reg) (src2 : Src2) (label : Word) (len : Nat) : Except Stop Statement :=
  match src2 with
  | .reg rt => (branchOffset s label).map (fun offset => .machine (.bne rs rt offset))
  | .const c => .ok (.pseudo len (.branch .ne rs (.const c) label))

/-- The base register and the field of an `address` that is put in one word (45_load.md R255): an `Offset(Base)` that
fits, and no other form, as 92_eei_decisions.md D19 says. DESIGN CHOICE, log 40: R255 makes a pseudoinstruction of what
cannot be put in one word, which leaves a label or constant of 16 bits open. -/
def machineAddress (address : Address) : Option (Reg × BitVec 16) :=
  match address with
  | .absolute _ => none
  | .indexed offset base => if fitsSigned offset then some (base, immOf offset) else none

/-- A plain load of an `address` (R255). -/
def assembleLoad (kind : LoadKind) (rt : Reg) (address : Address) (len : Nat) : Statement :=
  match machineAddress address with
  | none => .pseudo len (.generalLoad kind rt address)
  | some (base, offset) =>
    match kind with
    | .byte => .machine (.lb rt base offset)
    | .byteUnsigned => .machine (.lbu rt base offset)
    | .half => .machine (.lh rt base offset)
    | .halfUnsigned => .machine (.lhu rt base offset)
    | .word => .machine (.lw rt base offset)

/-- A plain store at an `address` (R255). -/
def assembleStore (kind : StoreKind) (rt : Reg) (address : Address) (len : Nat) : Statement :=
  match machineAddress address with
  | none => .pseudo len (.generalStore kind rt address)
  | some (base, offset) =>
    match kind with
    | .byte => .machine (.sb rt base offset)
    | .half => .machine (.sh rt base offset)
    | .word => .machine (.sw rt base offset)

/-- `lwl`, `lwr` of an `address` (R255). -/
def assembleLoadPartial (side : Side) (rt : Reg) (address : Address) (len : Nat) : Statement :=
  match machineAddress address, side with
  | none, _ => .pseudo len (.generalLoadPartial side rt address)
  | some (base, offset), .left => .machine (.lwl rt base offset)
  | some (base, offset), .right => .machine (.lwr rt base offset)

/-- `swl`, `swr` at an `address` (R255). -/
def assembleStorePartial (side : Side) (rt : Reg) (address : Address) (len : Nat) : Statement :=
  match machineAddress address, side with
  | none, _ => .pseudo len (.generalStorePartial side rt address)
  | some (base, offset), .left => .machine (.swl rt base offset)
  | some (base, offset), .right => .machine (.swr rt base offset)

/-- `lwcz` of an `address` (R255). -/
def assembleLoadCop (z : CopNum) (rt : Reg) (address : Address) (len : Nat) : Statement :=
  match machineAddress address with
  | none => .pseudo len (.generalLoadCop z rt address)
  | some (base, offset) => .machine (.lwcz z rt base offset)

/-- `swcz` at an `address` (R255). -/
def assembleStoreCop (z : CopNum) (rt : Reg) (address : Address) (len : Nat) : Statement :=
  match machineAddress address with
  | none => .pseudo len (.generalStoreCop z rt address)
  | some (base, offset) => .machine (.swcz z rt base offset)

/-- `lui` of a constant (42_constant.md R191): the field holds its low 16 bits; a constant out of range is rejected
(D19). -/
def assembleLui (rt : Reg) (c : Int) : Except Stop Statement :=
  match constantStop c with
  | some stop => .error stop
  | none => .ok (.machine (.lui rt (immOf c)))

/-! ## Programs of statements (R108) -/

/-- The effect of a statement. -/
def execStatement (statement : Statement) (s : State) : Result :=
  match statement with
  | .machine i => exec i s
  | .pseudo len p => execPseudo len p s

/-- The statement of a program that stands at an address. -/
def statementAt : List (Word × Statement) → Word → Option Statement
  | [], _ => none
  | (a, statement) :: rest, pc => if a = pc then some statement else statementAt rest pc

/-- One step of a program kept as statements at their addresses (R108): `pc` is checked as at a fetch
(60_exceptions.md R407, log 38); where no statement stands, the step is that of the machine (R418). -/
def statementStep (program : List (Word × Statement)) (s : State) : Result :=
  if s.ended then .fault .runEnded
  else
    match statementAt program s.pc with
    | some statement => unlessStop (fetchStop s) s (execStatement statement s)
    | none => step s

end Sys2Proof.Machine
end

