-- ==== Sys2Proof/Safety.lean ====
section
/-! DEFINITION. How a run goes on and how it ends (60_exceptions.md R405, R418), for the steps of the machine and for those
of a program of statements alike, and the invariant of the machine's states. -/

namespace Sys2Proof.Machine

/-! ## Runs

`run` is the step of the run: `step`, or `statementStep program`, in which a pseudoinstruction is a step too (10_state.md
R38). -/

/-- One step leads from `s` to `t`. -/
def stepsTo (run : State → Result) (s t : State) : Prop := run s = .next t

/-- `t` is reached from `s` by `n` steps. -/
def reachesIn (run : State → Result) : Nat → State → State → Prop
  | 0, s, t => s = t
  | n + 1, s, t => ∃ u, stepsTo run s u ∧ reachesIn run n u t

/-- The only normal end of a run: service 10 was executed (R386, R418(a), log 18). -/
def exits (run : State → Result) (s : State) : Prop := ∃ n t, reachesIn run n s t ∧ t.ended = true

/-- A run ends in an exception (R418(b)); it has not terminated normally (R405). -/
def faults (run : State → Result) (s : State) : Prop :=
  ∃ n t e pc, reachesIn run n s t ∧ run t = .fault (.raised e pc)

/-- A run reaches a form without a meaning (R418(c)). -/
def isRefused (run : State → Result) (s : State) : Prop := ∃ n t r, reachesIn run n s t ∧ run t = .refused r

/-- A run goes on for ever (R418(d)). -/
def runsForever (run : State → Result) (s : State) : Prop := ∀ n, ∃ t, reachesIn run n s t

/-- A safe run: it never faults by an exception and never reaches a form without a meaning (R405, R406). -/
def safeRun (run : State → Result) (s : State) : Prop := ¬ faults run s ∧ ¬ isRefused run s

/-! ## The invariant -/

/-- What holds of every state a run meets: memory keeps its one form, and the cell of register 0 holds 0 (10_state.md
R21). -/
def State.inv (s : State) : Prop := Memory.wf s.mem = true ∧ s.regs[0] = 0

end Sys2Proof.Machine
end

