-- ==== Sys2Proof/Certificates/Slice0/Obligations.lean ====
section
/-! DEFINITION. The statements about the machine. The first part names what they speak of: what a statement says stays
unchanged, and, in integer arithmetic, the results the rules of spec/ give. -/

namespace Sys2Proof.Claims

open Sys2Proof.Machine

/-! ## What stays unchanged -/

/-- Every general register but those listed reads as before. -/
def keepsRegs (s t : State) (dests : List Reg) : Prop := ∀ r, r ∉ dests → t.readReg r = s.readReg r

/-- Every coprocessor register but those listed reads as before. -/
def keepsCop (s t : State) (cells : List (CopNum × Reg)) : Prop :=
  ∀ z i, (z, i) ∉ cells → t.readCop z i = s.readCop z i

/-- Every condition flag is as before. -/
def keepsFlags (s t : State) : Prop := ∀ z, t.readFlag z = s.readFlag z

/-- `hi` and `lo` are as before. -/
def keepsHiLo (s t : State) : Prop := t.hi = s.hi ∧ t.lo = s.lo

/-- Every byte of memory at an address not listed reads as before. -/
def keepsMemory (s t : State) (addrs : List Word) : Prop := ∀ a, a ∉ addrs → t.byteAt a = s.byteAt a

/-- The console has neither printed nor answered. -/
def keepsConsole (s t : State) : Prop :=
  t.out = s.out ∧ t.inWords = s.inWords ∧ t.inDoubles = s.inDoubles ∧ t.inLines = s.inLines

/-- `status`, the parameters of the run and its not having ended are as before. -/
def keepsRun (s t : State) : Prop := t.status = s.status ∧ t.cfg = s.cfg ∧ t.ended = s.ended

/-- The frame of an instruction: nothing changes but `pc`, the general registers, coprocessor registers and bytes of
memory listed, and the count of drawn values. -/
def frame (s t : State) (dests : List Reg) (cells : List (CopNum × Reg)) (addrs : List Word) : Prop :=
  keepsRegs s t dests ∧ keepsCop s t cells ∧ keepsFlags s t ∧ keepsHiLo s t ∧ keepsMemory s t addrs ∧
    keepsConsole s t ∧ keepsRun s t

/-- `i` runs, leaves `v` in general register `rd` (0 where `rd` is register 0), moves to the next instruction, and
changes nothing else. -/
def setsReg (i : Instr) (s : State) (rd : Reg) (v : Word) : Prop :=
  ∃ t, exec i s = .next t ∧ t.readReg rd = (if rd = 0#5 then 0#32 else v) ∧ t.pc = s.pc + 4#32 ∧
    frame s t [rd] [] [] ∧ t.draws = s.draws

/-- `i` runs, leaves `h` in `hi` and `l` in `lo`, moves to the next instruction, and changes nothing else. -/
def setsHiLo (i : Instr) (s : State) (h l : Word) : Prop :=
  ∃ t, exec i s = .next t ∧ t.hi = h ∧ t.lo = l ∧ t.pc = s.pc + 4#32 ∧ keepsRegs s t [] ∧ keepsCop s t [] ∧
    keepsFlags s t ∧ keepsMemory s t [] ∧ keepsConsole s t ∧ keepsRun s t ∧ t.draws = s.draws

/-- `i` runs, leaves `p` as the next `pc`, and changes nothing else but the registers listed. -/
def goesTo (i : Instr) (s : State) (p : Word) (link : List Reg) : Prop :=
  ∃ t, exec i s = .next t ∧ t.pc = p ∧ (∀ r ∈ link, r ≠ 0#5 → t.readReg r = s.pc + 4#32) ∧ frame s t link [] [] ∧
    t.draws = s.draws

/-! ## Results (40_arithmetic_logical.md to 43_comparison.md, 47_data_movement.md) -/

/-- The results of the arithmetic and logical instructions that cannot raise. -/
def arithmeticResult (i : Instr) (s : State) : Option (Reg × Word) :=
  let n (r : Reg) : Nat := (s.readReg r).toNat
  let z (r : Reg) : Int := (s.readReg r).toInt
  match i with
  | .addu rd rs rt => some (rd, BitVec.ofNat 32 (n rs + n rt))
  | .addiu rt rs imm => some (rt, BitVec.ofInt 32 (z rs + imm.toInt))
  | .subu rd rs rt => some (rd, BitVec.ofInt 32 (z rs - z rt))
  | .and rd rs rt => some (rd, BitVec.ofNat 32 (n rs &&& n rt))
  | .andi rd rs imm => some (rd, BitVec.ofNat 32 (n rs &&& imm.toNat))
  | .nor rd rs rt => some (rd, BitVec.ofNat 32 (4294967295 - (n rs ||| n rt)))
  | .or rd rs rt => some (rd, BitVec.ofNat 32 (n rs ||| n rt))
  | .ori rt rs imm => some (rt, BitVec.ofNat 32 (n rs ||| imm.toNat))
  | .xor rd rs rt => some (rd, BitVec.ofNat 32 (n rs ^^^ n rt))
  | .xori rt rs imm => some (rt, BitVec.ofNat 32 (n rs ^^^ imm.toNat))
  | _ => none

/-- The exact results of the instructions that detect signed overflow (R120), not yet cut to a word. -/
def exactResult (i : Instr) (s : State) : Option (Reg × Int) :=
  let z (r : Reg) : Int := (s.readReg r).toInt
  match i with
  | .add rd rs rt => some (rd, z rs + z rt)
  | .addi rt rs imm => some (rt, z rs + imm.toInt)
  | .sub rd rs rt => some (rd, z rs - z rt)
  | _ => none

/-- The results of the shifts: a power of two times, or divided by and rounded down (R170 to R175). -/
def shiftResult (i : Instr) (s : State) : Option (Reg × Word) :=
  let n (r : Reg) : Nat := (s.readReg r).toNat
  let z (r : Reg) : Int := (s.readReg r).toInt
  match i with
  | .sll rd rt sa _ => some (rd, BitVec.ofNat 32 (n rt * 2 ^ sa.toNat))
  | .sllv rd rt rs => some (rd, BitVec.ofNat 32 (n rt * 2 ^ (n rs % 32)))
  | .srl rd rt sa _ => some (rd, BitVec.ofNat 32 (n rt / 2 ^ sa.toNat))
  | .srlv rd rt rs => some (rd, BitVec.ofNat 32 (n rt / 2 ^ (n rs % 32)))
  | .sra rd rt sa _ => some (rd, BitVec.ofInt 32 (z rt / 2 ^ sa.toNat))
  | .srav rd rt rs => some (rd, BitVec.ofInt 32 (z rt / 2 ^ (n rs % 32)))
  | _ => none

/-- The results of `lui` and of the moves from `hi`, `lo` and the coprocessors. -/
def moveResult (i : Instr) (s : State) : Option (Reg × Word) :=
  match i with
  | .lui rt imm => some (rt, BitVec.ofNat 32 (imm.toNat * 65536))
  | .mfhi rd => some (rd, s.hi)
  | .mflo rd => some (rd, s.lo)
  | .mfcz z rt rd => some (rt, s.readCop z rd)
  | _ => none

/-- A relation of two words, signed or unsigned by its name (R195). -/
def related (rel : Relation) (a b : Word) : Prop :=
  match rel with
  | .eq => a = b
  | .ne => a ≠ b
  | .ge => a.toInt ≥ b.toInt
  | .geu => a.toNat ≥ b.toNat
  | .gt => a.toInt > b.toInt
  | .gtu => a.toNat > b.toNat
  | .le => a.toInt ≤ b.toInt
  | .leu => a.toNat ≤ b.toNat
  | .lt => a.toInt < b.toInt
  | .ltu => a.toNat < b.toNat

/-- The destination, relation and operands of the machine comparisons (R203 to R206). -/
def comparison (i : Instr) (s : State) : Option (Reg × Relation × Word × Word) :=
  match i with
  | .slt rd rs rt => some (rd, .lt, s.readReg rs, s.readReg rt)
  | .sltu rd rs rt => some (rd, .ltu, s.readReg rs, s.readReg rt)
  | .slti rt rs imm => some (rt, .lt, s.readReg rs, BitVec.ofInt 32 imm.toInt)
  | .sltiu rt rs imm => some (rt, .ltu, s.readReg rs, BitVec.ofInt 32 imm.toInt)
  | _ => none

/-- The condition and the offset of the branches that do not link (R219 to R237); a flag is compared as a word. -/
def branchCondition (i : Instr) (s : State) : Option (Prop × BitVec 16) :=
  match i with
  | .beq rs rt offset => some (s.readReg rs = s.readReg rt, offset)
  | .bne rs rt offset => some (s.readReg rs ≠ s.readReg rt, offset)
  | .bgez rs offset => some ((s.readReg rs).toInt ≥ 0, offset)
  | .bgtz rs offset => some ((s.readReg rs).toInt > 0, offset)
  | .blez rs offset => some ((s.readReg rs).toInt ≤ 0, offset)
  | .bltz rs offset => some ((s.readReg rs).toInt < 0, offset)
  | .bczt z offset => if z = 1#2 then some (s.readFlag 1#2 = true, offset) else none
  | .bczf z offset => if z = 1#2 then some (s.readFlag 1#2 = false, offset) else none
  | _ => none

/-- The condition and the offset of the linking branches that do not test register 31 (R226, R233). -/
def linkCondition (i : Instr) (s : State) : Option (Prop × BitVec 16) :=
  match i with
  | .bgezal rs offset => if rs = 31#5 then none else some ((s.readReg rs).toInt ≥ 0, offset)
  | .bltzal rs offset => if rs = 31#5 then none else some ((s.readReg rs).toInt < 0, offset)
  | _ => none

/-- The target of a branch, in integers (R215): where `BRANCH_BASE` is `pc + 4`, or `pc`. -/
def target (s : State) (offset : BitVec 16) : Word :=
  match s.cfg.branchBase with
  | .afterBranch => BitVec.ofInt 32 (s.pc.toNat + 4 + offset.toInt * 4)
  | .atBranch => BitVec.ofInt 32 (s.pc.toNat + offset.toInt * 4)

/-- The target of `j` and `jal`, in integers (R216). -/
def farTarget (s : State) (field : BitVec 26) : Word :=
  BitVec.ofNat 32 ((s.pc.toNat + 4) % 2 ^ 32 / 2 ^ 28 * 2 ^ 28 + field.toNat * 4)

/-! ## Memory (20_memory.md, 45_load.md, 46_store.md) -/

/-- Every address of the list is allocated. -/
def allocated (s : State) (addrs : List Word) : Prop := ∀ a ∈ addrs, s.classAt a ≠ .unmapped

/-- Every address of the list is data. -/
def writable (s : State) (addrs : List Word) : Prop := ∀ a ∈ addrs, s.classAt a = .data

/-- Some address of the list is of a class. -/
def touches (s : State) (c : AddrClass) (addrs : List Word) : Prop := ∃ a ∈ addrs, s.classAt a = c

/-- The effective address, in integers (R255). -/
def ea (s : State) (base : Reg) (offset : BitVec 16) : Word :=
  BitVec.ofInt 32 ((s.readReg base).toNat + offset.toInt)

/-- A plain load: what it loads, its destination, its address. -/
def plainLoad (i : Instr) (s : State) : Option (LoadKind × Reg × Word) :=
  match i with
  | .lb rt base offset => some (.byte, rt, ea s base offset)
  | .lbu rt base offset => some (.byteUnsigned, rt, ea s base offset)
  | .lh rt base offset => some (.half, rt, ea s base offset)
  | .lhu rt base offset => some (.halfUnsigned, rt, ea s base offset)
  | .lw rt base offset => some (.word, rt, ea s base offset)
  | _ => none

/-- How many bytes a load moves. -/
def loadBytes (kind : LoadKind) : Nat :=
  match kind with
  | .byte | .byteUnsigned => 1
  | .half | .halfUnsigned => 2
  | .word => 4

/-- The number the `count` bytes at `a` make under a byte order (R52, R53). -/
def number (s : State) (a : Word) : Nat → Nat
  | 0 => 0
  | count + 1 =>
    match s.cfg.endian with
    | .little => (s.byteAt a).toNat + 256 * number s (a + 1#32) count
    | .big => (s.byteAt a).toNat * 256 ^ count + number s (a + 1#32) count

/-- The word a load leaves: the number its bytes make, extended with its sign where the load is signed. -/
def loaded (s : State) (kind : LoadKind) (a : Word) : Word :=
  match kind with
  | .byte => BitVec.ofInt 32 (BitVec.ofNat 8 (number s a 1)).toInt
  | .byteUnsigned => BitVec.ofNat 32 (number s a 1)
  | .half => BitVec.ofInt 32 (BitVec.ofNat 16 (number s a 2)).toInt
  | .halfUnsigned => BitVec.ofNat 32 (number s a 2)
  | .word => BitVec.ofNat 32 (number s a 4)

/-- A plain or coprocessor store: how many bytes it writes, its address, the value whose low bytes it writes. -/
def plainStore (i : Instr) (s : State) : Option (Nat × Word × Word) :=
  match i with
  | .sb rt base offset => some (1, ea s base offset, s.readReg rt)
  | .sh rt base offset => some (2, ea s base offset, s.readReg rt)
  | .sw rt base offset => some (4, ea s base offset, s.readReg rt)
  | .swcz z rt base offset => some (4, ea s base offset, s.readCop z rt)
  | _ => none

/-- Every load and store of a machine word that needs an aligned address: how many bytes, and where. -/
def alignedAccess (i : Instr) (s : State) : Option (Nat × Word) :=
  match plainLoad i s, plainStore i s, i with
  | some (kind, _, a), _, _ => some (loadBytes kind, a)
  | _, some (count, a, _), _ => some (count, a)
  | _, _, .lwcz _ _ base offset => some (4, ea s base offset)
  | _, _, _ => none

/-- The memory byte that register byte `j` (`B0` the least significant) pairs with in a partial-word access at `a`,
where it pairs with one (R264). -/
def partner (side : Side) (e : Endian) (a : Word) (j : Nat) : Option Word :=
  let k := a.toNat % 4
  match side, e with
  | .left, .big => if k ≤ j then some (a + BitVec.ofNat 32 (3 - j)) else none
  | .left, .little => if 3 - k ≤ j then some (a - BitVec.ofNat 32 (3 - j)) else none
  | .right, .big => if j ≤ k then some (a - BitVec.ofNat 32 j) else none
  | .right, .little => if j ≤ 3 - k then some (a + BitVec.ofNat 32 j) else none

/-- The memory bytes of a partial-word access. -/
def partners (side : Side) (e : Endian) (a : Word) : List Word :=
  [partner side e a 0, partner side e a 1, partner side e a 2, partner side e a 3].filterMap id

/-- Byte `j` of a word, as a number. -/
def byteNumber (v : Word) (j : Nat) : Nat := v.toNat / 256 ^ j % 256

/-- A partial-word load: its side, destination and address. -/
def partialLoad (i : Instr) (s : State) : Option (Side × Reg × Word) :=
  match i with
  | .lwl rt base offset => some (.left, rt, ea s base offset)
  | .lwr rt base offset => some (.right, rt, ea s base offset)
  | _ => none

/-- A partial-word store: its side, the word whose bytes it stores, and its address. -/
def partialStore (i : Instr) (s : State) : Option (Side × Word × Word) :=
  match i with
  | .swl rt base offset => some (.left, s.readReg rt, ea s base offset)
  | .swr rt base offset => some (.right, s.readReg rt, ea s base offset)
  | _ => none

/-! ## Floating point (48_floating_point.md) -/

/-- The number a value is, with the two infinities below and above all others; none for a NaN. -/
def numberOf (x : FloatValue) : Option (WithBot (WithTop ℚ)) :=
  match x with
  | .nan => none
  | .inf true => some ⊥
  | .inf false => some ((⊤ : WithTop ℚ) : WithBot (WithTop ℚ))
  | .fin neg mant exp =>
    some ((((if neg then -1 else 1) * (mant : ℚ) * (2 : ℚ) ^ exp : ℚ) : WithTop ℚ) : WithBot (WithTop ℚ))

/-- A relation of two values as numbers (R354): it holds of no NaN. -/
def floatRelated (rel : FloatRel) (x y : FloatValue) : Prop :=
  ∃ a b, numberOf x = some a ∧ numberOf y = some b ∧
    match rel with
    | .eq => a = b
    | .le => a ≤ b
    | .lt => a < b

/-- The floating-point registers an instruction names (R320). -/
def floatRegisters (i : Instr) : List Reg :=
  match i with
  | .absD fd fs | .absS fd fs | .cvtDS fd fs | .cvtDW fd fs | .cvtSD fd fs | .cvtSW fd fs | .cvtWD fd fs
  | .cvtWS fd fs | .movD fd fs | .movS fd fs | .negD fd fs | .negS fd fs => [fd, fs]
  | .addD fd fs ft | .addS fd fs ft | .subD fd fs ft | .subS fd fs ft | .mulD fd fs ft | .mulS fd fs ft
  | .divD fd fs ft | .divS fd fs ft => [fd, fs, ft]
  | .cEqD fs ft | .cEqS fs ft | .cLeD fs ft | .cLeS fs ft | .cLtD fs ft | .cLtS fs ft => [fs, ft]
  | _ => []

/-- Every floating-point register an instruction names is even (R320). -/
def allEven (i : Instr) : Prop := ∀ r ∈ floatRegisters i, r.toNat % 2 = 0

/-- `i` runs, leaves `v` in floating-point register `fd` and nothing else, and draws `draws` values. -/
def setsSingle (i : Instr) (s : State) (fd : Reg) (v : Word) (draws : Nat) : Prop :=
  ∃ t, exec i s = .next t ∧ t.readSingle fd = v ∧ t.pc = s.pc + 4#32 ∧ frame s t [] [(1#2, fd)] [] ∧
    t.draws = s.draws + draws

/-- `i` runs, leaves `v` in the pair of floating-point registers at `fd` and nothing else, and draws `draws` values.
-/
def setsDouble (i : Instr) (s : State) (fd : Reg) (v : DWord) (draws : Nat) : Prop :=
  ∃ t, exec i s = .next t ∧ t.readDouble fd = v ∧ t.pc = s.pc + 4#32 ∧
    frame s t [] [(1#2, fd), (1#2, fd + 1#5)] [] ∧ t.draws = s.draws + draws

/-- A single result: the pattern given, or, where there is none, some NaN (R321(d)). -/
def singleResult (i : Instr) (s : State) (fd : Reg) (result : Option Nat) : Prop :=
  match result with
  | some bits => setsSingle i s fd (BitVec.ofNat 32 bits) 0
  | none => ∃ v, isNan32 v = true ∧ setsSingle i s fd v 1

/-- A double result: the pattern given, or, where there is none, some NaN (R321(d)). -/
def doubleResult (i : Instr) (s : State) (fd : Reg) (result : Option Nat) : Prop :=
  match result with
  | some bits => setsDouble i s fd (BitVec.ofNat 64 bits) 0
  | none => ∃ v, isNan64 v = true ∧ setsDouble i s fd v 1

/-- The operation and operands of the single-precision arithmetic instructions. -/
def singleArithmetic (i : Instr) : Option (FloatOp × Reg × Reg × Reg) :=
  match i with
  | .addS fd fs ft => some (.add, fd, fs, ft)
  | .subS fd fs ft => some (.sub, fd, fs, ft)
  | .mulS fd fs ft => some (.mul, fd, fs, ft)
  | .divS fd fs ft => some (.div, fd, fs, ft)
  | _ => none

/-- The operation and operands of the double-precision arithmetic instructions. -/
def doubleArithmetic (i : Instr) : Option (FloatOp × Reg × Reg × Reg) :=
  match i with
  | .addD fd fs ft => some (.add, fd, fs, ft)
  | .subD fd fs ft => some (.sub, fd, fs, ft)
  | .mulD fd fs ft => some (.mul, fd, fs, ft)
  | .divD fd fs ft => some (.div, fd, fs, ft)
  | _ => none

/-- The relation and the values of the operands of a comparison. -/
def floatComparison (i : Instr) (s : State) : Option (FloatRel × FloatValue × FloatValue) :=
  let x (r : Reg) : FloatValue := single.valueOf (s.readSingle r).toNat
  let y (r : Reg) : FloatValue := double.valueOf (s.readDouble r).toNat
  match i with
  | .cEqS fs ft => some (.eq, x fs, x ft)
  | .cLeS fs ft => some (.le, x fs, x ft)
  | .cLtS fs ft => some (.lt, x fs, x ft)
  | .cEqD fs ft => some (.eq, y fs, y ft)
  | .cLeD fs ft => some (.le, y fs, y ft)
  | .cLtD fs ft => some (.lt, y fs, y ft)
  | _ => none

/-! ## Who may write what, and who may raise what (10_state.md R35, 60_exceptions.md R400) -/

/-- The instructions that write `hi` or `lo` (R26). -/
def writesHiLo (i : Instr) : Bool :=
  match i with
  | .mult _ _ | .multu _ _ | .div _ _ | .divu _ _ | .mthi _ | .mtlo _ => true
  | _ => false

/-- The floating-point comparisons, which alone write a condition flag (R30). -/
def compares (i : Instr) : Bool :=
  match i with
  | .cEqD _ _ | .cEqS _ _ | .cLeD _ _ | .cLeS _ _ | .cLtD _ _ | .cLtS _ _ => true
  | _ => false

/-- The instructions that write memory (R35). -/
def stores (i : Instr) : Bool :=
  match i with
  | .sb _ _ _ | .sh _ _ _ | .sw _ _ _ | .swcz _ _ _ _ | .swl _ _ _ | .swr _ _ _ | .syscall => true
  | _ => false

/-- The exceptions an instruction may raise (R400). -/
def mayRaise (i : Instr) (e : Exception) : Prop :=
  match e with
  | .overflow => (∃ a b c, i = .add a b c ∨ i = .sub a b c) ∨ (∃ a b c, i = .addi a b c) ∨ ∃ a b, i = .div a b
  | .divideByZero => False
  | .brk n => i = .brk n
  | .addressError _ =>
    (∃ a b c, i = .lh a b c ∨ i = .lhu a b c ∨ i = .lw a b c ∨ i = .sh a b c ∨ i = .sw a b c) ∨
      ∃ z a b c, i = .lwcz z a b c ∨ i = .swcz z a b c
  | .busError _ =>
    (∃ a b c, i = .lb a b c ∨ i = .lbu a b c ∨ i = .lh a b c ∨ i = .lhu a b c ∨ i = .lw a b c ∨ i = .lwl a b c ∨
        i = .lwr a b c ∨ i = .sb a b c ∨ i = .sh a b c ∨ i = .sw a b c ∨ i = .swl a b c ∨ i = .swr a b c) ∨
      (∃ z a b c, i = .lwcz z a b c ∨ i = .swcz z a b c) ∨ i = .syscall
  | .reservedInstruction _ => False
  | .unknownSyscall _ => i = .syscall

/-! ## Pseudoinstructions (10_state.md R38) -/

/-- The general registers a pseudoinstruction writes by its own rule. -/
def pseudoDests (p : Pseudo) : List Reg :=
  match p with
  | .unary _ r _ | .mulDiv _ r _ _ | .rol r _ _ | .ror r _ _ | .li r _ | .set _ r _ _ | .la r _ | .ulh r _ | .ulhu r _
  | .ulw r _ | .generalAlu _ r _ _ | .generalLoad _ r _ | .generalLoadPartial _ r _ => [r]
  | .ld r _ | .mfc1D r _ => [r, r + 1#5]
  | _ => []

/-- The label a branch pseudoinstruction names. -/
def pseudoLabel (p : Pseudo) : Option Word :=
  match p with
  | .b label | .beqz _ label | .bnez _ label | .branch _ _ _ label => some label
  | _ => none

/-- The pseudoinstructions that leave `hi` and `lo` unspecified or hold a result there. -/
def pseudoUsesHiLo (p : Pseudo) : Bool :=
  match p with
  | .mulDiv _ _ _ _ | .generalHiLo _ _ _ => true
  | _ => false

/-- A pseudoinstruction runs, leaves `v` in register `rd`, moves to the next statement of `len` words, and changes
nothing else but `x[1]` (R38), the count of draws and, where it works through the multiply and divide `unit`, `hi` and
`lo`. -/
def pseudoSets (len : Nat) (p : Pseudo) (s : State) (rd : Reg) (v : Word) (unit : Bool) : Prop :=
  ∃ t, execPseudo len p s = .next t ∧ t.readReg rd = (if rd = 0#5 then 0#32 else v) ∧
    t.pc = s.pc + BitVec.ofNat 32 (4 * len) ∧ keepsRegs s t [rd, 1#5] ∧ keepsCop s t [] ∧ keepsFlags s t ∧
    keepsMemory s t [] ∧ keepsConsole s t ∧ keepsRun s t ∧ (unit = false → keepsHiLo s t)

/-- The number an operand stands for, as an unsigned word (R121). -/
def operand (s : State) (src2 : Src2) : Word :=
  match src2 with
  | .reg r => s.readReg r
  | .const c => BitVec.ofInt 32 c

/-- The value an `address` stands for (R255). -/
def place (s : State) (address : Address) : Word :=
  match address with
  | .absolute value => BitVec.ofInt 32 value
  | .indexed offset base => BitVec.ofInt 32 ((s.readReg base).toNat + offset)

/-- The result of a three-operand operation in general form on two words, where it has one (R109, R120). -/
def aluResult (op : AluOp) (a b : Word) : Option Word :=
  match op with
  | .add =>
    if -2147483648 ≤ a.toInt + b.toInt ∧ a.toInt + b.toInt ≤ 2147483647 then some (BitVec.ofInt 32 (a.toInt + b.toInt))
    else none
  | .sub =>
    if -2147483648 ≤ a.toInt - b.toInt ∧ a.toInt - b.toInt ≤ 2147483647 then some (BitVec.ofInt 32 (a.toInt - b.toInt))
    else none
  | .addu => some (BitVec.ofNat 32 (a.toNat + b.toNat))
  | .subu => some (BitVec.ofInt 32 (a.toInt - b.toInt))
  | .and => some (BitVec.ofNat 32 (a.toNat &&& b.toNat))
  | .or => some (BitVec.ofNat 32 (a.toNat ||| b.toNat))
  | .xor => some (BitVec.ofNat 32 (a.toNat ^^^ b.toNat))
  | .nor => some (BitVec.ofNat 32 (4294967295 - (a.toNat ||| b.toNat)))
  | .sllv => some (BitVec.ofNat 32 (a.toNat * 2 ^ (b.toNat % 32)))
  | .srlv => some (BitVec.ofNat 32 (a.toNat / 2 ^ (b.toNat % 32)))
  | .srav => some (BitVec.ofInt 32 (a.toInt / 2 ^ (b.toNat % 32)))

/-- The destination and the result of the pseudoinstructions of one result that neither touch memory nor work through
the multiply and divide unit; `some (rd, none)` where it overflows. -/
def pseudoResult (p : Pseudo) (s : State) : Option (Reg × Option Word) :=
  match p with
  | .unary .abs rd r =>
    some (rd, if s.readReg r = 0x80000000#32 then none else some (BitVec.ofNat 32 (s.readReg r).toInt.natAbs))
  | .unary .neg rd r =>
    some (rd, if s.readReg r = 0x80000000#32 then none else some (BitVec.ofInt 32 (-(s.readReg r).toInt)))
  | .unary .negu rd r => some (rd, some (BitVec.ofInt 32 (-(s.readReg r).toInt)))
  | .unary .not rd r => some (rd, some (BitVec.ofNat 32 (4294967295 - (s.readReg r).toNat)))
  | .unary .move rd r => some (rd, some (s.readReg r))
  | .rol rd r c =>
    let n := (operand s c).toNat % 32
    some (rd, some (BitVec.ofNat 32 ((s.readReg r).toNat * 2 ^ n + (s.readReg r).toNat / 2 ^ (32 - n))))
  | .ror rd r c =>
    let n := (operand s c).toNat % 32
    some (rd, some (BitVec.ofNat 32 ((s.readReg r).toNat / 2 ^ n + (s.readReg r).toNat * 2 ^ (32 - n))))
  | .li rd c => some (rd, some (BitVec.ofInt 32 c))
  | .la rd address => some (rd, some (place s address))
  | .generalAlu op rd r c => some (rd, aluResult op (s.readReg r) (BitVec.ofInt 32 c))
  | _ => none

/-- The condition and the label of the branch pseudoinstructions (R218, R222 to R238, R244). -/
def pseudoCondition (p : Pseudo) (s : State) : Option (Prop × Word) :=
  match p with
  | .b label => some (True, label)
  | .beqz r label => some (s.readReg r = 0#32, label)
  | .bnez r label => some (s.readReg r ≠ 0#32, label)
  | .branch rel r c label => some (related rel (s.readReg r) (operand s c), label)
  | _ => none

/-- The loads that need no alignment, and the plain loads that are not put in one word: what each loads, its
destination, its alignment and its address (R255, R267 to R269). -/
def pseudoLoad (p : Pseudo) (s : State) : Option (LoadKind × Reg × Nat × Word) :=
  match p with
  | .ulh rd address => some (.half, rd, 1, place s address)
  | .ulhu rd address => some (.halfUnsigned, rd, 1, place s address)
  | .ulw rd address => some (.word, rd, 1, place s address)
  | .generalLoad kind rd address => some (kind, rd, loadBytes kind, place s address)
  | _ => none

/-- The loads of a coprocessor register: which, and its address (R342, R255). -/
def pseudoCopLoad (p : Pseudo) (s : State) : Option (CopNum × Reg × Word) :=
  match p with
  | .lS f address => if f.toNat % 2 = 0 then some (1#2, f, place s address) else none
  | .generalLoadCop z r address => some (z, r, place s address)
  | _ => none

/-- The stores of one value: how many bytes, alignment, address, and the value whose low bytes it writes (R288, R289,
R351, R255). -/
def pseudoStore (p : Pseudo) (s : State) : Option (Nat × Nat × Word × Word) :=
  match p with
  | .ush r address => some (2, 1, place s address, s.readReg r)
  | .usw r address => some (4, 1, place s address, s.readReg r)
  | .sS f address => if f.toNat % 2 = 0 then some (4, 4, place s address, s.readSingle f) else none
  | .generalStore kind r address =>
    match kind with
    | .byte => some (1, 1, place s address, s.readReg r)
    | .half => some (2, 2, place s address, s.readReg r)
    | .word => some (4, 4, place s address, s.readReg r)
  | .generalStoreCop z r address => some (4, 4, place s address, s.readCop z r)
  | _ => none

/-- The pseudoinstructions that write memory (R35). -/
def pseudoStores (p : Pseudo) : Bool :=
  match p with
  | .sd _ _ | .ush _ _ | .usw _ _ | .sD _ _ | .sS _ _ | .generalStore _ _ _ | .generalStorePartial _ _ _
  | .generalStoreCop _ _ _ => true
  | _ => false

/-- The general register that starts a pair (R259, R281, R306). -/
def pseudoPair (p : Pseudo) : List Reg :=
  match p with
  | .ld r _ | .sd r _ | .mfc1D r _ => [r]
  | _ => []

/-- The floating-point registers that must be even (R29, R306, R341, R342, R350, R351). -/
def pseudoFloatRegisters (p : Pseudo) : List Reg :=
  match p with
  | .lD f _ | .lS f _ | .sD f _ | .sS f _ | .mfc1D _ f => [f]
  | _ => []

/-- The constant of a `Src2`, if it is one. -/
def constantOf (src2 : Src2) : List Int :=
  match src2 with
  | .reg _ => []
  | .const c => [c]

/-- The constants a pseudoinstruction is written with. -/
def pseudoConstants (p : Pseudo) : List Int :=
  match p with
  | .mulDiv _ _ _ c | .rol _ _ c | .ror _ _ c | .set _ _ _ c | .branch _ _ c _ => constantOf c
  | .li _ c | .generalAlu _ _ _ c | .generalHiLo _ _ c => [c]
  | .la _ a | .ld _ a | .sd _ a | .ulh _ a | .ulhu _ a | .ulw _ a | .ush _ a | .usw _ a | .lD _ a | .lS _ a | .sD _ a
  | .sS _ a | .generalLoad _ _ a | .generalLoadPartial _ _ a | .generalLoadCop _ _ a | .generalStore _ _ a
  | .generalStorePartial _ _ a | .generalStoreCop _ _ a =>
    match a with
    | .absolute value => [value]
    | .indexed offset _ => [offset]
  | _ => []

/-- The reasons for which a pseudoinstruction's form has no meaning (R406): register 31 as a pair, an odd floating-point
register, a constant out of range. -/
def pseudoRefusals (p : Pseudo) : List Refusal :=
  ((pseudoPair p).filter (fun r => r = 31#5)).map (fun _ => .pairRegister31) ++
    ((pseudoFloatRegisters p).filter (fun r => r.toNat % 2 = 1)).map (fun _ => .oddFloatRegister) ++
    ((pseudoConstants p).filter (fun c => c < -2147483648 ∨ 4294967295 < c)).map .constantOutOfRange

/-- An access to the bytes `addrs` at `a` stops `p` where one of them is not allocated, or, where all are and `p` writes
them, one lies in `text` (R59, R61, R407). -/
def accessStops (len : Nat) (p : Pseudo) (s : State) (a : Word) (addrs : List Word) : Prop :=
  (touches s .unmapped addrs → execPseudo len p s = .fault (.raised (.busError a) s.pc)) ∧
    (pseudoStores p = true → allocated s addrs → touches s .text addrs →
      execPseudo len p s = .refused (.storeToText a))

/-- A pseudoinstruction with a misaligned address raises (R56). -/
def misalignedStops (len : Nat) (p : Pseudo) (s : State) (align : Nat) (a : Word) : Prop :=
  a.toNat % align ≠ 0 → execPseudo len p s = .fault (.raised (.addressError a) s.pc)

/-- A pseudoinstruction completes, moves to the next statement of `len` words, and changes nothing but the general
registers `dests` and `x[1]`, the coprocessor registers `cells` and the bytes at `addrs`. -/
def movesOn (len : Nat) (p : Pseudo) (s t : State) (dests : List Reg) (cells : List (CopNum × Reg)) (addrs : List Word) :
    Prop :=
  execPseudo len p s = .next t ∧ t.pc = s.pc + BitVec.ofNat 32 (4 * len) ∧ frame s t (1#5 :: dests) cells addrs

/-- The loads of a general register (R267 to R269, R255). -/
def pseudoLoadsFollow : Prop :=
  ∀ len p s kind rd align a, p.wellFormed = true → pseudoLoad p s = some (kind, rd, align, a) →
    (a.toNat % align = 0 → allocated s (bytesFrom a (loadBytes kind)) →
      pseudoSets len p s rd (loaded s kind a) false) ∧
    misalignedStops len p s align a ∧ (a.toNat % align = 0 → accessStops len p s a (bytesFrom a (loadBytes kind)))

/-- The loads of a coprocessor register (R342, R255). -/
def pseudoCopLoadsFollow : Prop :=
  ∀ len p s z r a, p.wellFormed = true → pseudoCopLoad p s = some (z, r, a) →
    (a.toNat % 4 = 0 → allocated s (bytesFrom a 4) →
      ∃ t, movesOn len p s t [] [(z, r)] [] ∧ t.readCop z r = BitVec.ofNat 32 (number s a 4)) ∧
    misalignedStops len p s 4 a ∧ (a.toNat % 4 = 0 → accessStops len p s a (bytesFrom a 4))

/-- `lwl` and `lwr` of an `address` that is not put in one word (R255, R265, R266). -/
def pseudoPartialLoadsFollow : Prop :=
  ∀ len s side rd address, Address.wellFormed address = true →
    let p := Pseudo.generalLoadPartial side rd address
    let a := place s address
    let e := s.cfg.endian
    (allocated s (partners side e a) →
      ∃ v, pseudoSets len p s rd v false ∧
        ∀ j < 4, byteNumber v j =
          match partner side e a j with
          | some m => (s.byteAt m).toNat
          | none => byteNumber (s.readReg rd) j) ∧
    accessStops len p s a (partners side e a)

/-- The stores of one value (R288, R289, R351, R255): their effect, and what stops those of one access. -/
def pseudoStoresFollow : Prop :=
  ∀ len p s count align a v, p.wellFormed = true → pseudoStore p s = some (count, align, a, v) →
    (Memory.wf s.mem = true → a.toNat % align = 0 → writable s (bytesFrom a count) →
      ∃ t, movesOn len p s t [] [] (bytesFrom a count) ∧ number t a count = v.toNat % 256 ^ count) ∧
    misalignedStops len p s align a ∧ (align = count → a.toNat % align = 0 → accessStops len p s a (bytesFrom a count))

/-- What stops `ush` and `usw`, of two accesses each (R57): first the bytes of the first access, one for `ush`, those of the
aligned word that holds the address for `usw`; then the others (R407, log 39). -/
def unalignedStoresFollow : Prop :=
  ∀ len s r address, Address.wellFormed address = true →
    let a := place s address
    let inWord := 4 - a.toNat % 4
    (accessStops len (.ush r address) s a [a] ∧
      (s.classAt a = .data → accessStops len (.ush r address) s a [a + 1#32])) ∧
    (accessStops len (.usw r address) s a (bytesFrom a inWord) ∧
      (writable s (bytesFrom a inWord) →
        accessStops len (.usw r address) s a (bytesFrom (a + BitVec.ofNat 32 inWord) (4 - inWord))))

/-- `swl` and `swr` at an `address` that is not put in one word (R255, R286, R287). -/
def pseudoPartialStoresFollow : Prop :=
  ∀ len s side r address, Address.wellFormed address = true →
    let p := Pseudo.generalStorePartial side r address
    let a := place s address
    let e := s.cfg.endian
    (Memory.wf s.mem = true → writable s (partners side e a) →
      ∃ t, movesOn len p s t [] [] (partners side e a) ∧
        ∀ j < 4, ∀ m, partner side e a j = some m → (t.byteAt m).toNat = byteNumber (s.readReg r) j) ∧
    accessStops len p s a (partners side e a)

/-- `ld` and `l.d` (R259, R341). -/
def doubleLoadsFollow : Prop :=
  ∀ (len : Nat) (s : State) (address : Address), address.wellFormed = true →
    let a := place s address
    (∀ q : Reg, q ≠ 31#5 → a.toNat % 4 = 0 → allocated s (bytesFrom a 8) →
      ∃ t, movesOn len (.ld q address) s t [q, q + 1#5] [] [] ∧ (q ≠ 0#5 → (t.readReg q).toNat = number s a 4) ∧
        (t.readReg (q + 1#5)).toNat = number s (a + 4#32) 4) ∧
    (∀ g : Reg, g.toNat % 2 = 0 → a.toNat % 4 = 0 → allocated s (bytesFrom a 8) →
      ∃ t, movesOn len (.lD g address) s t [] [(1#2, g), (1#2, g + 1#5)] [] ∧
        (t.readDouble g).toNat = number s a 8) ∧
    ∀ p, ((∃ q : Reg, q ≠ 31#5 ∧ p = .ld q address) ∨ ∃ g : Reg, g.toNat % 2 = 0 ∧ p = .lD g address) →
      misalignedStops len p s 4 a ∧
      (a.toNat % 4 = 0 → accessStops len p s a (bytesFrom a 4) ∧
        (allocated s (bytesFrom a 4) → accessStops len p s (a + 4#32) (bytesFrom (a + 4#32) 4)))

/-- `sd` and `s.d` (R281, R350). -/
def doubleStoresFollow : Prop :=
  ∀ (len : Nat) (s : State) (address : Address), address.wellFormed = true →
    let a := place s address
    (∀ r : Reg, r ≠ 31#5 → Memory.wf s.mem = true → a.toNat % 4 = 0 → writable s (bytesFrom a 8) →
      ∃ t, movesOn len (.sd r address) s t [] [] (bytesFrom a 8) ∧ number t a 4 = (s.readReg r).toNat ∧
        number t (a + 4#32) 4 = (s.readReg (r + 1#5)).toNat) ∧
    (∀ f : Reg, f.toNat % 2 = 0 → Memory.wf s.mem = true → a.toNat % 4 = 0 → writable s (bytesFrom a 8) →
      ∃ t, movesOn len (.sD f address) s t [] [] (bytesFrom a 8) ∧ number t a 8 = (s.readDouble f).toNat) ∧
    ∀ p, ((∃ r : Reg, r ≠ 31#5 ∧ p = .sd r address) ∨ ∃ f : Reg, f.toNat % 2 = 0 ∧ p = .sD f address) →
      misalignedStops len p s 4 a ∧
      (a.toNat % 4 = 0 → accessStops len p s a (bytesFrom a 4) ∧
        (writable s (bytesFrom a 4) → accessStops len p s (a + 4#32) (bytesFrom (a + 4#32) 4)))

/-- A double-word stored and loaded again is the pair that was stored, where its base is not `x[1]`, which the store
leaves drawn (R281, R350). -/
def doubleWordsReturn : Prop :=
  ∀ (len len' : Nat) (s : State) (address : Address), Memory.wf s.mem = true → address.wellFormed = true →
    (∀ offset, address ≠ .indexed offset 1#5) → (place s address).toNat % 4 = 0 →
    writable s (bytesFrom (place s address) 8) →
    (∀ r q : Reg, r ≠ 31#5 → q ≠ 31#5 →
      ∃ t u, execPseudo len (.sd r address) s = .next t ∧ execPseudo len' (.ld q address) t = .next u ∧
        (q ≠ 0#5 → u.readReg q = s.readReg r) ∧ u.readReg (q + 1#5) = s.readReg (r + 1#5) ∧
        keepsMemory s u (bytesFrom (place s address) 8)) ∧
    ∀ f g : Reg, f.toNat % 2 = 0 → g.toNat % 2 = 0 →
      ∃ t u, execPseudo len (.sD f address) s = .next t ∧ execPseudo len' (.lD g address) t = .next u ∧
        u.readDouble g = s.readDouble f ∧ keepsMemory s u (bytesFrom (place s address) 8)

/-! ## General forms (30_encoding.md R109, 45_load.md R255) -/

/-- What a signed division of `a` by `b` gives as quotient `q` and remainder `r` (R134): fixed for `a >= 0` and `b >
0`; else truncation by default, or whatever the host's function says, which depends on `a` and `b` alone. -/
def dividesTo (s : State) (a b q r : Word) : Prop :=
  (0 ≤ a.toInt → 0 < b.toInt → q.toInt = a.toInt / b.toInt ∧ r.toInt = a.toInt - q.toInt * b.toInt) ∧
    (s.cfg.sdiv = .truncating →
      a.toInt = q.toInt * b.toInt + r.toInt ∧ |r.toInt| < |b.toInt| ∧ (r.toInt = 0 ∨ (0 < r.toInt ↔ 0 < a.toInt))) ∧
    (s.cfg.sdiv = .hostDefined → ¬ (0 ≤ a.toInt ∧ 0 < b.toInt) → (q, r) = Config.signedDivision a b)

/-- How many words a statement occupies (R108). -/
def wordsOf (statement : Statement) : Nat :=
  match statement with
  | .machine _ => 1
  | .pseudo len _ => len

/-- A statement completes, moves past its words, and changes nothing but the general registers `dests` and the bytes at
`addrs`. -/
def statementMovesOn (statement : Statement) (s t : State) (dests : List Reg) (addrs : List Word) : Prop :=
  execStatement statement s = .next t ∧ t.pc = s.pc + BitVec.ofNat 32 (4 * wordsOf statement) ∧ frame s t dests [] addrs

/-- A statement completes, leaves `v` in `rd`, and changes nothing else but `x[1]`. -/
def statementSets (statement : Statement) (s : State) (rd : Reg) (v : Word) : Prop :=
  ∃ t, statementMovesOn statement s t [rd, 1#5] [] ∧ t.readReg rd = (if rd = 0#5 then 0#32 else v)

/-- A statement completes, leaves `h` in `hi` and `l` in `lo`, and changes nothing else but `x[1]`. -/
def statementSetsHiLo (statement : Statement) (s : State) (h l : Word) : Prop :=
  ∃ t, execStatement statement s = .next t ∧ t.hi = h ∧ t.lo = l ∧
    t.pc = s.pc + BitVec.ofNat 32 (4 * wordsOf statement) ∧ keepsRegs s t [1#5] ∧ keepsCop s t [] ∧ keepsFlags s t ∧
    keepsMemory s t [] ∧ keepsConsole s t ∧ keepsRun s t

/-- The operations of one result. -/
def generalAluAgrees : Prop :=
  ∀ op rd rs src2 len s, Src2.wellFormed src2 = true →
    match aluResult op (s.readReg rs) (operand s src2) with
    | some v => statementSets (assembleAlu op rd rs src2 len) s rd v
    | none => execStatement (assembleAlu op rd rs src2 len) s = .fault (.raised .overflow s.pc)

/-- `slt` and `sltu`. -/
def generalSetsAgree : Prop :=
  ∀ rd rs src2 len s, Src2.wellFormed src2 = true →
    (related .lt (s.readReg rs) (operand s src2) → statementSets (assembleSlt rd rs src2 len) s rd 1#32) ∧
    (¬ related .lt (s.readReg rs) (operand s src2) → statementSets (assembleSlt rd rs src2 len) s rd 0#32) ∧
    (related .ltu (s.readReg rs) (operand s src2) → statementSets (assembleSltu rd rs src2 len) s rd 1#32) ∧
    (¬ related .ltu (s.readReg rs) (operand s src2) → statementSets (assembleSltu rd rs src2 len) s rd 0#32)

/-- `mult`, `multu` and the two-operand divisions; a divisor of 0 leaves drawn values (R135, R136, log 13). -/
def generalHiLoAgrees : Prop :=
  ∀ rs src2 len s, Src2.wellFormed src2 = true →
    let a := s.readReg rs
    let b := operand s src2
    let corner := a.toInt = -2 ^ 31 ∧ b.toInt = -1
    statementSetsHiLo (assembleHiLo .mult rs src2 len) s (BitVec.ofInt 32 (a.toInt * b.toInt / 2 ^ 32))
      (BitVec.ofInt 32 (a.toInt * b.toInt)) ∧
    statementSetsHiLo (assembleHiLo .multu rs src2 len) s (BitVec.ofNat 32 (a.toNat * b.toNat / 2 ^ 32))
      (BitVec.ofNat 32 (a.toNat * b.toNat)) ∧
    (b ≠ 0#32 →
      statementSetsHiLo (assembleHiLo .divu rs src2 len) s (BitVec.ofNat 32 (a.toNat % b.toNat))
        (BitVec.ofNat 32 (a.toNat / b.toNat))) ∧
    (b ≠ 0#32 → ¬ corner →
      ∃ q r, statementSetsHiLo (assembleHiLo .div rs src2 len) s r q ∧ dividesTo s a b q r) ∧
    (corner → execStatement (assembleHiLo .div rs src2 len) s = .fault (.raised .overflow s.pc)) ∧
    (b = 0#32 → ∀ op, op = .div ∨ op = .divu →
      statementSetsHiLo (assembleHiLo op rs src2 len) s (Config.draw32 (s.draws + 1)) (Config.draw32 s.draws))

/-- A plain load of an `address`. -/
def generalLoadsAgree : Prop :=
  ∀ kind rt address len s, Address.wellFormed address = true →
    let a := place s address
    a.toNat % loadBytes kind = 0 → allocated s (bytesFrom a (loadBytes kind)) →
      statementSets (assembleLoad kind rt address len) s rt (loaded s kind a)

/-- How many bytes a plain store writes. -/
def storeBytes (kind : StoreKind) : Nat :=
  match kind with
  | .byte => 1
  | .half => 2
  | .word => 4

/-- A plain store at an `address`. -/
def generalStoresAgree : Prop :=
  ∀ kind rt address len s, Address.wellFormed address = true → Memory.wf s.mem = true →
    let a := place s address
    let n := storeBytes kind
    a.toNat % n = 0 → writable s (bytesFrom a n) →
      ∃ t, statementMovesOn (assembleStore kind rt address len) s t [1#5] (bytesFrom a n) ∧
        number t a n = (s.readReg rt).toNat % 256 ^ n

/-- A constant outside `[-2^31, 2^32 - 1]` is refused wherever a general form takes one, before anything else is looked at;
the field of `lui` holds the low 16 bits of a constant in range. -/
def constantsAreChecked : Prop :=
  (∀ c : Int, (c < -2147483648 ∨ 4294967295 < c) → ∀ len s rd rs,
    let rejected : Result := .refused (.constantOutOfRange c)
    (∀ op, execStatement (assembleAlu op rd rs (.const c) len) s = rejected) ∧
      execStatement (assembleSlt rd rs (.const c) len) s = rejected ∧
      execStatement (assembleSltu rd rs (.const c) len) s = rejected ∧
      (∀ op, execStatement (assembleHiLo op rs (.const c) len) s = rejected) ∧
      (∀ address, (address = .absolute c ∨ ∃ base, address = .indexed c base) →
        (∀ kind, execStatement (assembleLoad kind rd address len) s = rejected) ∧
        ∀ kind, execStatement (assembleStore kind rd address len) s = rejected) ∧
      assembleLui rd c = .error (.refuses (.constantOutOfRange c))) ∧
    ∀ c : Int, -2147483648 ≤ c → c ≤ 4294967295 → ∀ rt, assembleLui rt c = .ok (.machine (.lui rt (BitVec.ofInt 16 c)))

/-! ## Fetch, refusals, services -/

/-- An instruction can be fetched: the run has not ended, `pc` is aligned, and the four bytes lie in `text` (R25,
R60). -/
def fetchable (s : State) : Prop :=
  s.ended = false ∧ s.pc.toNat % 4 = 0 ∧ ∀ a ∈ bytesFrom s.pc 4, s.classAt a = .text

/-- The pairs of `fmt` and `funct` of the floating-point instructions (R105). -/
def floatPairs : List (BitVec 5 × BitVec 6) :=
  [(0x10, 0x00), (0x10, 0x01), (0x10, 0x02), (0x10, 0x03), (0x10, 0x05), (0x10, 0x06), (0x10, 0x07), (0x10, 0x21),
   (0x10, 0x24), (0x10, 0x32), (0x10, 0x3c), (0x10, 0x3e), (0x11, 0x00), (0x11, 0x01), (0x11, 0x02), (0x11, 0x03),
   (0x11, 0x05), (0x11, 0x06), (0x11, 0x07), (0x11, 0x20), (0x11, 0x24), (0x11, 0x32), (0x11, 0x3c), (0x11, 0x3e),
   (0x14, 0x20), (0x14, 0x21)]

/-- The reserved words R106 gives as examples: `add` with `Sa` not 0, `lui` with the `Rs` field not 0, `mult` with
bits 15:6 not 0, and a floating-point pair that is not in R105 (`rfe` apart). -/
def reservedShape (w : Word) : Prop :=
  (fieldOp w = 0x00#6 ∧ fieldFunct w = 0x20#6 ∧ fieldSa w ≠ 0#5) ∨ (fieldOp w = 0x0f#6 ∧ fieldRs w ≠ 0#5) ∨
    (fieldOp w = 0x00#6 ∧ fieldFunct w = 0x18#6 ∧ (fieldRd w ≠ 0#5 ∨ fieldSa w ≠ 0#5)) ∨
    (fieldOp w = 0x11#6 ∧ 16 ≤ (fieldRs w).toNat ∧ (fieldRs w, fieldFunct w) ∉ floatPairs ∧ w ≠ 0x46000020#32)

/-- The machine forms that have no meaning (R406), whatever the rest of the state holds. -/
def refusedForm (i : Instr) (s : State) (r : Refusal) : Prop :=
  (∃ z offset, (i = .bczt z offset ∨ i = .bczf z offset) ∧ z ≠ 1#2 ∧ r = .conditionFlagUnspecified z) ∨
    (∃ offset, (i = .bgezal 31#5 offset ∨ i = .bltzal 31#5 offset) ∧ r = .linkSourceIsLink) ∨
    (∃ q, i = .jalr q q ∧ r = .jalrSameRegister) ∨ (¬ allEven i ∧ r = .oddFloatRegister) ∨
    (i = .rfe ∧ s.cfg.statusRestore = .notSupplied ∧ r = .statusRestoreNotSupplied)

/-- The alignment, the address and the bytes of every machine memory access (R55, R57). -/
def access (i : Instr) (s : State) : Option (Nat × Word × List Word) :=
  match alignedAccess i s, partialLoad i s, partialStore i s with
  | some (count, a), _, _ => some (count, a, bytesFrom a count)
  | _, some (side, _, a), _ => some (1, a, partners side s.cfg.endian a)
  | _, _, some (side, _, a) => some (1, a, partners side s.cfg.endian a)
  | _, _, _ => none

/-- A result without the values of `hi` and `lo`. -/
def withoutHiLo (r : Result) : Result :=
  match r with
  | .next t => .next { t with hi := 0#32, lo := 0#32 }
  | .fault f => .fault f
  | .refused f => .refused f

/-- A result without the output so far. -/
def withoutOutput (r : Result) : Result :=
  match r with
  | .next t => .next { t with out := [] }
  | .fault f => .fault f
  | .refused f => .refused f

/-- A result without the value of `status`. -/
def withoutStatus (r : Result) : Result :=
  match r with
  | .next t => .next { t with status := 0#32 }
  | .fault f => .fault f
  | .refused f => .refused f

/-- The events of the services that print a value (R378, R379, R380, R387). -/
def printed (s : State) : Option OutputEvent :=
  if s.readReg 2#5 = 1#32 then some (.printInt (s.readReg 4#5))
  else if s.readReg 2#5 = 2#32 then some (.printFloat (s.readSingle 12#5))
  else if s.readReg 2#5 = 3#32 then
    some (.printDouble (BitVec.ofNat 64 ((s.readSingle 13#5).toNat * 2 ^ 32 + (s.readSingle 12#5).toNat)))
  else if s.readReg 2#5 = 11#32 then some (.printChar (BitVec.ofNat 8 (s.readReg 4#5).toNat))
  else none

/-- `syscall` completes, appends an event to `host.out`, moves on, and changes nothing else (R376, R377). -/
def prints (s : State) (e : OutputEvent) : Prop :=
  ∃ t, exec .syscall s = .next t ∧ t.out = s.out ++ [e] ∧ t.inWords = s.inWords ∧ t.inDoubles = s.inDoubles ∧
    t.inLines = s.inLines ∧ t.pc = s.pc + 4#32 ∧ keepsRegs s t [] ∧ keepsCop s t [] ∧ keepsFlags s t ∧ keepsHiLo s t ∧
    keepsMemory s t [] ∧ keepsRun s t ∧ t.draws = s.draws

/-- `syscall` completes, moves on, and changes nothing but the registers and bytes listed, `host.in` and the count of
draws. -/
def reads (s t : State) (dests : List Reg) (cells : List (CopNum × Reg)) (addrs : List Word) : Prop :=
  exec .syscall s = .next t ∧ t.pc = s.pc + 4#32 ∧ keepsRegs s t dests ∧ keepsCop s t cells ∧ keepsFlags s t ∧
    keepsHiLo s t ∧ keepsMemory s t addrs ∧ t.out = s.out ∧ keepsRun s t

/-- The line service 8 works on: the first that waits, without the two bytes no line holds; a free one where none
waits. -/
def offeredLine (s : State) : List Byte :=
  (match s.inLines with
   | [] => Config.hostLine s.draws
   | line :: _ => line).filter (fun b => b ≠ 0x00#8 ∧ b ≠ 0x0A#8)

/-- The string service 8 makes of a line (R385). -/
def keptString (line : List Byte) (n : Nat) : List Byte :=
  if n - 1 ≤ line.length then line.take (n - 1) else line ++ [0x0A#8]

/-! ## Exact arithmetic (48_floating_point.md R321, R349) -/

/-- The number of a finite value. -/
def ratOf (x : FloatValue) : Option ℚ :=
  match x with
  | .nan => none
  | .inf _ => none
  | .fin neg mant exp => some ((if neg then -1 else 1) * (mant : ℚ) * (2 : ℚ) ^ exp)

/-- The exact result of an operation on numbers. -/
def exactly (op : FloatOp) (a b : ℚ) : ℚ :=
  match op with
  | .add => a + b
  | .sub => a - b
  | .mul => a * b
  | .div => a / b

/-- Where results become infinite: half a unit in the last place above the greatest finite number. -/
def overflowLimit (fmt : FloatFormat) : ℚ :=
  (2 ^ (fmt.fracBits + 2) - 1) * (2 : ℚ) ^ (fmt.minExp + (fmt.expMax : Int) - 3)

/-- `bits` is the pattern of a format nearest to `r`: no finite pattern is nearer, a tie goes to the even one, a
number from `overflowLimit` on gives the infinity of its sign (R321(a), (b), (c)); the sign is that of `r` unless `r`
is 0. -/
def nearest (fmt : FloatFormat) (r : ℚ) (bits : Nat) : Prop :=
  bits < 2 ^ (fmt.fracBits + fmt.expBits + 1) ∧
    (r ≠ 0 → (2 ^ (fmt.fracBits + fmt.expBits) ≤ bits ↔ r < 0)) ∧
    (overflowLimit fmt ≤ |r| → fmt.valueOf bits = .inf (decide (r < 0))) ∧
    (|r| < overflowLimit fmt →
      ∃ q, ratOf (fmt.valueOf bits) = some q ∧
        ∀ c p, ratOf (fmt.valueOf c) = some p → |q - r| ≤ |p - r| ∧ (|q - r| = |p - r| → p ≠ q → bits % 2 = 0))

/-- The results that are not the rounding of a non-zero number: NaNs, infinities from infinite operands or a zero
divisor, zeros (a zero is given as `.fin sign 0 0`) (R321(c), (d), (e)). -/
def specialResult (op : FloatOp) (x y : FloatValue) : Option FloatValue :=
  match op, x, y with
  | _, .nan, _ => some .nan
  | _, _, .nan => some .nan
  | .add, .inf a, .inf b => some (if a = b then .inf a else .nan)
  | .sub, .inf a, .inf b => some (if a = b then .nan else .inf a)
  | .add, .inf a, .fin _ _ _ => some (.inf a)
  | .sub, .inf a, .fin _ _ _ => some (.inf a)
  | .add, .fin _ _ _, .inf b => some (.inf b)
  | .sub, .fin _ _ _, .inf b => some (.inf (!b))
  | .add, .fin a m e, .fin b n f =>
    if ratOf (.fin a m e) = ratOf (.fin (!b) n f) then some (.fin (a && b) 0 0) else none
  | .sub, .fin a m e, .fin b n f =>
    if ratOf (.fin a m e) = ratOf (.fin b n f) then some (.fin (a && !b) 0 0) else none
  | .mul, .inf a, .inf b => some (.inf (a != b))
  | .mul, .inf a, .fin b n _ => some (if n = 0 then .nan else .inf (a != b))
  | .mul, .fin a m _, .inf b => some (if m = 0 then .nan else .inf (a != b))
  | .mul, .fin a m _, .fin b n _ => if m = 0 ∨ n = 0 then some (.fin (a != b) 0 0) else none
  | .div, .inf _, .inf _ => some .nan
  | .div, .inf a, .fin b _ _ => some (.inf (a != b))
  | .div, .fin a _ _, .inf b => some (.fin (a != b) 0 0)
  | .div, .fin a m _, .fin b n _ =>
    if n = 0 then some (if m = 0 then .nan else .inf (a != b))
    else if m = 0 then some (.fin (a != b) 0 0) else none

/-- An integer is what a rule of `FP_CVT_W` makes of a number (R349). -/
def roundsTo (rule : Rounding) (q : ℚ) (n : Int) : Prop :=
  match rule with
  | .nearestEven => |q - n| ≤ 1 / 2 ∧ (|q - n| = 1 / 2 → n % 2 = 0)
  | .towardZero => if 0 ≤ q then (n : ℚ) ≤ q ∧ q < n + 1 else q ≤ n ∧ (n : ℚ) - 1 < q
  | .towardMinusInfinity => (n : ℚ) ≤ q ∧ q < n + 1
  | .towardPlusInfinity => q ≤ n ∧ (n : ℚ) - 1 < q

/-- The operands of a conversion to integer: its destination and the value of its source. -/
def toInteger (i : Instr) (s : State) : Option (Reg × FloatValue) :=
  match i with
  | .cvtWS fd fs => some (fd, single.valueOf (s.readSingle fs).toNat)
  | .cvtWD fd fs => some (fd, double.valueOf (s.readDouble fs).toNat)
  | _ => none

end Sys2Proof.Claims

open Sys2Proof Sys2Proof.Machine Sys2Proof.Claims

/-! ## The decoder -/

/-- Decoding the bytes of a well-formed instruction gives it back, under either byte order, whatever bytes follow. -/
def Obligations.DecodeOfEncode : Prop :=
  ∀ (e : Endian) (i : Instr) (rest : List Byte), i.wellFormed = true →
    decodeBytes e (encodeBytes e i ++ rest) = .ok (i, rest)

/-- Every word that decodes is the word of the instruction it decodes to, which is well formed: no bit is dropped. -/
def Obligations.EncodeOfDecode : Prop :=
  ∀ (w : Word) (i : Instr), decodeWord w = .ok i → encode i = w ∧ i.wellFormed = true

/-- R100: a word is the instruction of the one row it matches; the rows are disjoint but for `nop` inside `sll`, which
have the same effect; a word of no row is reserved; so the decoder answers every word. -/
def Obligations.DecoderFollowsOpcodeTable : Prop :=
  (∀ w i, decodeWord w = .ok i → rowOf i ∈ opcodeTable ∧ (rowOf i).accepts w = true ∧ encode i = w) ∧
    (∀ w r, r ∈ opcodeTable → r.accepts w = true →
      ∃ i, decodeWord w = .ok i ∧ (rowOf i = r ∨ (w = 0#32 ∧ i = .nop ∧ r.mnemonic = "sll"))) ∧
    (∀ w, (∀ r ∈ opcodeTable, r.accepts w = false) → decodeWord w = .error (.reserved w)) ∧
    (∀ w r r', r ∈ opcodeTable → r' ∈ opcodeTable → r.accepts w = true → r'.accepts w = true → r ≠ r' →
      (r.mnemonic = "nop" ∧ r'.mnemonic = "sll") ∨ (r.mnemonic = "sll" ∧ r'.mnemonic = "nop")) ∧
    ∀ s, exec .nop s = exec (.sll 0#5 0#5 0#5 0#5) s

/-- R106 (decision D34 of the spec): a fetched word that matches no row raises `ReservedInstruction`; so do the words
R106 gives as examples, each of which matches no row. -/
def Obligations.ReservedWordsRaise : Prop :=
  (∀ s, fetchable s → (∀ r ∈ opcodeTable, r.accepts s.fetchWord = false) →
    step s = .fault (.raised (.reservedInstruction s.fetchWord) s.pc)) ∧
    ∀ w, reservedShape w → ∀ r ∈ opcodeTable, r.accepts w = false

/-- Words written out in the examples of the spec decode to their instructions. -/
def Obligations.SampleWordsDecode : Prop :=
  decodeWord 0x00221820#32 = .ok (.add 3#5 1#5 2#5) ∧ decodeWord 0x2022FFFF#32 = .ok (.addi 2#5 1#5 0xFFFF#16) ∧
    decodeWord 0x0085001A#32 = .ok (.div 4#5 5#5) ∧ decodeWord 0x00021900#32 = .ok (.sll 3#5 2#5 4#5 0#5) ∧
    decodeWord 0x45010003#32 = .ok (.bczt 1#2 3#16) ∧ decodeWord 0x10220003#32 = .ok (.beq 1#5 2#5 3#16) ∧
    decodeWord 0x8062FFFC#32 = .ok (.lb 2#5 3#5 0xFFFC#16) ∧ decodeWord 0x98620000#32 = .ok (.lwr 2#5 3#5 0#16) ∧
    decodeWord 0xC4620008#32 = .ok (.lwcz 1#2 2#5 3#5 8#16) ∧ decodeWord 0x46262080#32 = .ok (.addD 2#5 4#5 6#5) ∧
    decodeWord 0x4606203E#32 = .ok (.cLeS 4#5 6#5) ∧ decodeWord 0x46000020#32 = .ok .rfe ∧
    decodeWord 0x000001CD#32 = .ok (.brk 7#20) ∧ decodeWord 0x0000000C#32 = .ok .syscall ∧
    decodeWord 0x00000000#32 = .ok .nop

/-! ## One step -/

/-- Where a run has not ended, `pc` is aligned, its four bytes lie in `text` and they decode to an instruction, the
step is that instruction's meaning, on the same state; nothing is added around it. A step of a program of statements is
the meaning of the statement at such a `pc`; where no statement stands, or no fetch is possible, it is the step of the
machine (the model's choice, log 38). -/
def Obligations.StepRunsDecoded : Prop :=
  (∀ s i, fetchable s →
    decodeBytes s.cfg.endian [s.byteAt s.pc, s.byteAt (s.pc + 1#32), s.byteAt (s.pc + 2#32), s.byteAt (s.pc + 3#32)] =
      .ok (i, []) →
    step s = exec i s) ∧
    (∀ program s statement, fetchable s → statementAt program s.pc = some statement →
      statementStep program s = execStatement statement s) ∧
    ∀ program s, (¬ fetchable s ∨ statementAt program s.pc = none) → statementStep program s = step s

/-- R25 (decisions D5 and D36): a step is only taken from an aligned `pc`; a misaligned one raises `AddressError(pc)`
and runs nothing; the instruction after the one at `pc` is at `pc + 4` modulo `2^32`, address 0 after `0xFFFFFFFC`. -/
def Obligations.MisalignedFetchRaises : Prop :=
  (∀ s, s.ended = false → s.pc.toNat % 4 ≠ 0 → step s = .fault (.raised (.addressError s.pc) s.pc)) ∧
    (∀ s t, step s = .next t → s.pc.toNat % 4 = 0) ∧
    (∀ s, ∃ t, exec .nop s = .next t ∧ t.pc.toNat = (s.pc.toNat + 4) % 2 ^ 32) ∧
    ∀ s, s.pc = 0xFFFFFFFC#32 → ∃ t, exec .nop s = .next t ∧ t.pc = 0#32

/-- R60 (decision D33), and the order of the checks of a fetch (decision D37): the word executed is the number the
four bytes at `pc` make under the byte order of data; a byte that is not allocated raises, else a byte of `data` is
refused. -/
def Obligations.FetchFollowsMap : Prop :=
  ∀ s, s.ended = false → s.pc.toNat % 4 = 0 →
    (touches s .unmapped (bytesFrom s.pc 4) → step s = .fault (.raised (.busError s.pc) s.pc)) ∧
    (allocated s (bytesFrom s.pc 4) → touches s .data (bytesFrom s.pc 4) → step s = .refused (.fetchFromData s.pc)) ∧
    ((∀ a ∈ bytesFrom s.pc 4, s.classAt a = .text) →
      step s =
        (match decodeWord (BitVec.ofNat 32 (number s s.pc 4)) with
         | .ok i => exec i s
         | .error _ => .fault (.raised (.reservedInstruction (BitVec.ofNat 32 (number s s.pc 4))) s.pc)))

/-- Service 10 ends the run with the state otherwise as it was, `pc` still at the `syscall` (R386), and no step follows
it: the field `ended` that marks the end and the fault `runEnded` of a later step are the model's choice (log 18).
Nothing else ends a run; a run of words exits exactly when it reaches that service. Every run, of words or of statements
(a program without statements runs words), exits, faults, is refused or goes on for ever, and only one of these (R418). -/
def Obligations.ExitEndsRun : Prop :=
  (∀ s, s.readReg 2#5 = 10#32 → exec .syscall s = .next { s with ended := true }) ∧
    (∀ s program, s.ended = true → step s = .fault .runEnded ∧ statementStep program s = .fault .runEnded) ∧
    (∀ i s t, exec i s = .next t → t.ended = true → s.ended = true ∨ (i = .syscall ∧ s.readReg 2#5 = 10#32)) ∧
    (∀ len p s t, execPseudo len p s = .next t → t.ended = s.ended) ∧
    (∀ s, s.ended = false →
      (exits step s ↔
        ∃ n t, reachesIn step n s t ∧ fetchable t ∧ decodeWord t.fetchWord = .ok .syscall ∧ t.readReg 2#5 = 10#32)) ∧
    (∀ s, statementStep [] s = step s) ∧
    ∀ program s,
      let run := statementStep program
      (exits run s ∨ faults run s ∨ isRefused run s ∨ runsForever run s) ∧ ¬ (exits run s ∧ faults run s) ∧
        ¬ (exits run s ∧ isRefused run s) ∧ ¬ (faults run s ∧ isRefused run s) ∧
        ¬ (runsForever run s ∧ (exits run s ∨ faults run s ∨ isRefused run s))

/-! ## Invariants and whole-machine rules -/

/-- Every step, of the machine or of a pseudoinstruction, keeps the invariant: memory in its one form, the cell of
register 0 at 0. -/
def Obligations.InvariantKept : Prop :=
  ∀ s t, s.inv → (step s = .next t ∨ ∃ len p, execPseudo len p s = .next t) → t.inv

/-- The state after reset meets the invariant, and has what 10_state.md R40 states: `pc` at `ENTRY`, aligned and in
`text`, register 0 at 0, nothing printed. That no image is loaded, what `ENTRY` and the map are, and the flag of a run
that has ended are the model's choice (logs 3, 4, 17, 18). -/
def Obligations.ResetMeetsInvariant : Prop :=
  State.reset.inv ∧ State.reset.pc = State.reset.cfg.entry ∧ State.reset.pc.toNat % 4 = 0 ∧
    (∀ a ∈ bytesFrom State.reset.pc 4, State.reset.classAt a = .text) ∧ State.reset.readReg 0#5 = 0#32 ∧
    State.reset.out = [] ∧ State.reset.mem = [] ∧ State.reset.ended = false

/-- No step, of the machine or of a pseudoinstruction, changes a parameter of the run (the byte order among them) or a
byte that is not data: program text is immutable, every later fetch of an address sees the same word (R34, R52, R61,
R65). -/
def Obligations.ParametersAndTextNeverChange : Prop :=
  ∀ s t, Memory.wf s.mem = true → (step s = .next t ∨ ∃ len p, execPseudo len p s = .next t) →
    t.cfg = s.cfg ∧ ∀ a, s.classAt a ≠ .data → t.byteAt a = s.byteAt a

/-- Only the multiply and divide instructions and the moves to it write `hi` and `lo`; only the comparisons write a
flag, and only that of coprocessor 1; only `rfe` writes `status`; only the stores and service 8 write memory; only
`syscall` uses the console or ends the run, and it appends at most one event to the output (R26, R30, R31, R33, R35).
-/
def Obligations.OnlyNamedWritersWrite : Prop :=
  ∀ i s t, exec i s = .next t →
    (writesHiLo i = false → keepsHiLo s t) ∧ (compares i = false → keepsFlags s t) ∧
    (∀ z, z ≠ 1#2 → t.readFlag z = s.readFlag z) ∧ (i ≠ .rfe → t.status = s.status) ∧
    (stores i = false → keepsMemory s t []) ∧ (i = .syscall → s.readReg 2#5 ≠ 8#32 → keepsMemory s t []) ∧
    (i ≠ .syscall → keepsConsole s t ∧ t.ended = s.ended) ∧ ∃ es, t.out = s.out ++ es ∧ es.length ≤ 1

/-- No instruction but `mfhi` and `mflo` depends on `hi` or `lo`, none but `rfe` on `status`, none on the output so
far: with them changed, the result is the same but for them (R26, R31, R376). -/
def Obligations.UnreadStateIsUnread : Prop :=
  (∀ i s h l, (∀ rd, i ≠ .mfhi rd ∧ i ≠ .mflo rd) →
    withoutHiLo (exec i { s with hi := h, lo := l }) = withoutHiLo (exec i s)) ∧
    (∀ i s v, i ≠ .rfe → withoutStatus (exec i { s with status := v }) = withoutStatus (exec i s)) ∧
    ∀ i s o, withoutOutput (exec i { s with out := o }) = withoutOutput (exec i s)

/-- Register 0 reads as 0 always, and a write to it is discarded: general knowledge that 10_state.md R21 takes,
decision D2 (log 20). -/
def Obligations.RegisterZeroIsZero : Prop :=
  ∀ (s : State) (v : Word), s.readReg 0#5 = 0#32 ∧ s.writeReg 0#5 v = s

/-- An instruction that faults raises an exception R400 lists for it, and records its own `pc`: the run stops there,
with no state after (R402, R403, R404). -/
def Obligations.FaultsAreListed : Prop :=
  ∀ i s f, exec i s = .fault f → ∃ e, f = .raised e s.pc ∧ mayRaise i e

/-- The operand forms without a meaning are refused, by name, of machine instructions and of pseudoinstructions; and
either is refused for no other reason than one of these, a write to program text, or a string without end (R406). -/
def Obligations.RefusedFormsAreThese : Prop :=
  (∀ i s r, refusedForm i s r → exec i s = .refused r) ∧
    (∀ i s r, exec i s = .refused r →
      refusedForm i s r ∨ (∃ a, r = .storeToText a ∧ stores i = true) ∨ (∃ a, r = .endlessString a ∧ i = .syscall)) ∧
    (∀ len p s, pseudoRefusals p ≠ [] → ∃ r ∈ pseudoRefusals p, execPseudo len p s = .refused r) ∧
    ∀ len p s r, execPseudo len p s = .refused r →
      r ∈ pseudoRefusals p ∨ (∃ a, r = .storeToText a ∧ pseudoStores p = true)

/-! ## Arithmetic, logic, shifts, comparisons, moves -/

/-- Each arithmetic and logical instruction that cannot raise completes, and leaves its result in its destination. -/
def Obligations.ArithmeticLogicalResults : Prop :=
  ∀ i s rd v, arithmeticResult i s = some (rd, v) → setsReg i s rd v

/-- `add`, `addi`, `sub` write the exact result where it fits a signed word, and raise `Overflow` where it does not.
-/
def Obligations.OverflowIsDetected : Prop :=
  ∀ i s rd x, exactResult i s = some (rd, x) →
    (-2 ^ 31 ≤ x → x ≤ 2 ^ 31 - 1 → setsReg i s rd (BitVec.ofInt 32 x)) ∧
    ((x < -2 ^ 31 ∨ 2 ^ 31 - 1 < x) → exec i s = .fault (.raised .overflow s.pc))

/-- The shifts multiply, or divide rounding down, by the power of two their distance gives; a variable distance counts
modulo 32; the ignored field has no effect. -/
def Obligations.ShiftResults : Prop :=
  ∀ i s rd v, shiftResult i s = some (rd, v) → setsReg i s rd v

/-- A comparison, machine or pseudo, writes 1 where its relation holds and 0 where it does not, and raises nothing. -/
def Obligations.ComparisonResults : Prop :=
  (∀ i s rd rel a b, comparison i s = some (rd, rel, a, b) →
    (related rel a b → setsReg i s rd 1#32) ∧ (¬ related rel a b → setsReg i s rd 0#32)) ∧
    ∀ len rel rd r c s, c.wellFormed = true →
      (related rel (s.readReg r) (operand s c) → pseudoSets len (.set rel rd r c) s rd 1#32 false) ∧
      (¬ related rel (s.readReg r) (operand s c) → pseudoSets len (.set rel rd r c) s rd 0#32 false)

/-- `lui` and the moves copy: from `hi`, `lo` and the coprocessors to a general register, and back; the other of `hi`
and `lo` keeps its value. That `mfcz` and `mtcz` with `z` other than 1 run is the model's choice (log 21), where decision
D27 advises to refuse them. -/
def Obligations.MovesCopy : Prop :=
  (∀ i s rd v, moveResult i s = some (rd, v) → setsReg i s rd v) ∧
    (∀ rs s, setsHiLo (.mthi rs) s (s.readReg rs) s.lo) ∧ (∀ rs s, setsHiLo (.mtlo rs) s s.hi (s.readReg rs)) ∧
    ∀ z rt rd s, ∃ t, exec (.mtcz z rt rd) s = .next t ∧ t.readCop z rd = s.readReg rt ∧ t.pc = s.pc + 4#32 ∧
      frame s t [] [(z, rd)] [] ∧ t.draws = s.draws

/-- `mult` and `multu` leave the high and low words of the exact product; `divu` by a non-zero divisor leaves
remainder and quotient. -/
def Obligations.MultiplyAndDivideUnsigned : Prop :=
  (∀ rs rt s,
    let p := (s.readReg rs).toInt * (s.readReg rt).toInt
    setsHiLo (.mult rs rt) s (BitVec.ofInt 32 (p / 2 ^ 32)) (BitVec.ofInt 32 p)) ∧
    (∀ rs rt s,
      let p := (s.readReg rs).toNat * (s.readReg rt).toNat
      setsHiLo (.multu rs rt) s (BitVec.ofNat 32 (p / 2 ^ 32)) (BitVec.ofNat 32 p)) ∧
    ∀ rs rt s, s.readReg rt ≠ 0#32 →
      setsHiLo (.divu rs rt) s (BitVec.ofNat 32 ((s.readReg rs).toNat % (s.readReg rt).toNat))
        (BitVec.ofNat 32 ((s.readReg rs).toNat / (s.readReg rt).toNat))

/-- Signed division by 40_arithmetic_logical.md R134, whose default, truncation, is general knowledge and decision D13
(log 6). `div` with a divisor that is not 0 and a quotient that fits leaves quotient and remainder: fixed where
neither operand is negative, truncated by default, else a function of the two operands alone. -/
def Obligations.SignedDivision : Prop :=
  ∀ rs rt s, s.readReg rt ≠ 0#32 → ¬ ((s.readReg rs).toInt = -2 ^ 31 ∧ (s.readReg rt).toInt = -1) →
    ∃ q r, setsHiLo (.div rs rt) s r q ∧ dividesTo s (s.readReg rs) (s.readReg rt) q r

/-- A divisor of 0 leaves drawn values in `lo` and `hi`, for `div` and `divu`, and raises nothing; `div` of `-2^31` by
`-1` raises `Overflow` (decision D12; how a value is drawn is the model's choice, log 13). -/
def Obligations.DivisionCorners : Prop :=
  (∀ i rs rt s, (i = .div rs rt ∨ i = .divu rs rt) → s.readReg rt = 0#32 →
    ∃ t, exec i s = .next t ∧ t.lo = Config.draw32 s.draws ∧ t.hi = Config.draw32 (s.draws + 1) ∧ t.draws = s.draws + 2 ∧
      t.pc = s.pc + 4#32 ∧ keepsRegs s t [] ∧ keepsCop s t [] ∧ keepsFlags s t ∧ keepsMemory s t [] ∧ keepsConsole s t ∧
      keepsRun s t) ∧
    ∀ rs rt s, (s.readReg rs).toInt = -2 ^ 31 → (s.readReg rt).toInt = -1 →
      exec (.div rs rt) s = .fault (.raised .overflow s.pc)

/-! ## Branches and jumps -/

/-- A branch goes to its target where its condition holds, else to the next instruction; a linking branch leaves the
address of the next instruction in register 31 either way. -/
def Obligations.BranchOutcomes : Prop :=
  (∀ i s c offset, branchCondition i s = some (c, offset) →
    (c → goesTo i s (target s offset) []) ∧ (¬ c → goesTo i s (s.pc + 4#32) [])) ∧
    ∀ i s c offset, linkCondition i s = some (c, offset) →
      (c → goesTo i s (target s offset) [31#5]) ∧ (¬ c → goesTo i s (s.pc + 4#32) [31#5])

/-- `j` and `jal` go to their target in the block of the next instruction, `jr` and `jalr` to the address in a
register; `jal` links in register 31, `jalr` in its first register. -/
def Obligations.JumpOutcomes : Prop :=
  ∀ s, (∀ field, goesTo (.j field) s (farTarget s field) [] ∧ goesTo (.jal field) s (farTarget s field) [31#5]) ∧
    (∀ rs, goesTo (.jr rs) s (s.readReg rs) []) ∧
    ∀ rd rs, rd ≠ rs → goesTo (.jalr rd rs) s (s.readReg rs) [rd]

/-- From an aligned `pc` every instruction but `jr` and `jalr` leads to an aligned `pc`; `j` and `jal` stay in the
`2^28`-byte block of the next instruction (R215, R216). -/
def Obligations.AlignedPcIsKept : Prop :=
  (∀ i s t, s.pc.toNat % 4 = 0 → (∀ rs, i ≠ .jr rs) → (∀ rd rs, i ≠ .jalr rd rs) → exec i s = .next t →
    t.pc.toNat % 4 = 0) ∧
    ∀ i s t field, (i = .j field ∨ i = .jal field) → exec i s = .next t →
      t.pc.toNat / 2 ^ 28 = (s.pc + 4#32).toNat / 2 ^ 28

/-! ## Loads and stores -/

/-- Each plain load at an aligned address whose bytes are allocated completes with the number its bytes make,
extended; so does the load of a coprocessor register, for `z` other than 1 by the model's choice (log 21), where decision
D27 advises to refuse it. -/
def Obligations.LoadsComplete : Prop :=
  (∀ i s kind rt a, plainLoad i s = some (kind, rt, a) → a.toNat % loadBytes kind = 0 →
    allocated s (bytesFrom a (loadBytes kind)) → setsReg i s rt (loaded s kind a)) ∧
    ∀ z rt base offset s, (ea s base offset).toNat % 4 = 0 → allocated s (bytesFrom (ea s base offset) 4) →
      ∃ t, exec (.lwcz z rt base offset) s = .next t ∧
        t.readCop z rt = BitVec.ofNat 32 (number s (ea s base offset) 4) ∧ t.pc = s.pc + 4#32 ∧
        frame s t [] [(z, rt)] [] ∧ t.draws = s.draws

/-- Each plain and coprocessor store at an aligned address whose bytes are data completes; its bytes then make the low
bytes of its value, and nothing else changes. That `swcz` with `z` other than 1 runs is the model's choice (log 21), where
decision D27 advises to refuse it. -/
def Obligations.StoresComplete : Prop :=
  ∀ i s count a v, plainStore i s = some (count, a, v) → Memory.wf s.mem = true → a.toNat % count = 0 →
    writable s (bytesFrom a count) →
    ∃ t, exec i s = .next t ∧ number t a count = v.toNat % 256 ^ count ∧ t.pc = s.pc + 4#32 ∧
      frame s t [] [] (bytesFrom a count) ∧ t.draws = s.draws

/-- R56 (decision D5): a halfword or word access at a misaligned effective address, and a fetch at a misaligned `pc`,
raise `AddressError` with that address; nothing is loaded, stored, split or rounded. -/
def Obligations.MisalignedAccessRaises : Prop :=
  (∀ i s count a, alignedAccess i s = some (count, a) → a.toNat % count ≠ 0 →
    exec i s = .fault (.raised (.addressError a) s.pc)) ∧
    ∀ s, s.ended = false → s.pc.toNat % 4 ≠ 0 → step s = .fault (.raised (.addressError s.pc) s.pc)

/-- An aligned access that touches a byte that is not allocated raises `BusError` with the address of the access; a
store whose bytes are all allocated, one of them in `text`, is refused; `lwl`, `lwr`, `swl`, `swr` included. -/
def Obligations.AccessFollowsMap : Prop :=
  ∀ i s align a addrs, access i s = some (align, a, addrs) → a.toNat % align = 0 →
    (touches s .unmapped addrs → exec i s = .fault (.raised (.busError a) s.pc)) ∧
    (stores i = true → allocated s addrs → touches s .text addrs → exec i s = .refused (.storeToText a))

/-- `lwl` and `lwr` replace the register bytes that pair with a byte of memory, and keep the others. -/
def Obligations.PartialLoads : Prop :=
  ∀ i s side rt a, partialLoad i s = some (side, rt, a) → allocated s (partners side s.cfg.endian a) →
    ∃ v, setsReg i s rt v ∧
      ∀ j < 4, byteNumber v j =
        match partner side s.cfg.endian a j with
        | some m => (s.byteAt m).toNat
        | none => byteNumber (s.readReg rt) j

/-- `swl` and `swr` write each byte of memory that pairs with a register byte, and no other. -/
def Obligations.PartialStores : Prop :=
  ∀ i s side v a, partialStore i s = some (side, v, a) → Memory.wf s.mem = true →
    writable s (partners side s.cfg.endian a) →
    ∃ t, exec i s = .next t ∧
      (∀ j < 4, ∀ m, partner side s.cfg.endian a j = some m → (t.byteAt m).toNat = byteNumber v j) ∧
      t.pc = s.pc + 4#32 ∧ frame s t [] [] (partners side s.cfg.endian a) ∧ t.draws = s.draws

/-- The pair of partial-word loads that reads an unaligned word, in either order, leaves in the register the number
its four bytes make (R264). -/
def Obligations.UnalignedPairReadsWord : Prop :=
  ∀ (s : State) (rt base : Reg) (low high : BitVec 16) (first second : Instr), rt ≠ 0#5 → base ≠ rt →
    ea s base high = ea s base low + 3#32 → allocated s (bytesFrom (ea s base low) 4) →
    (match s.cfg.endian with
     | .little => (first = .lwr rt base low ∧ second = .lwl rt base high) ∨
         (first = .lwl rt base high ∧ second = .lwr rt base low)
     | .big => (first = .lwl rt base low ∧ second = .lwr rt base high) ∨
         (first = .lwr rt base high ∧ second = .lwl rt base low)) →
    ∃ t u, exec first s = .next t ∧ exec second t = .next u ∧
      u.readReg rt = BitVec.ofNat 32 (number s (ea s base low) 4) ∧ u.pc = s.pc + 8#32 ∧ frame s u [rt] [] []

/-- Mixed widths, derived in 20_memory.md R69 from R53 and R54: after a word is stored, a byte and a halfword read of
it see the bytes the store put there; for the value `0x11223344` the byte at `a` is `0x44` or `0x11` and the halfword
at `a + 2` is `0x1122` or `0x3344`, by byte order. -/
def Obligations.MixedWidths : Prop :=
  (∀ s t rt base offset, Memory.wf s.mem = true → exec (.sw rt base offset) s = .next t →
    let a := ea s base offset
    let v := (s.readReg rt).toNat
    (s.cfg.endian = .little → number t a 1 = v % 256 ∧ number t (a + 2#32) 2 = v / 65536) ∧
    (s.cfg.endian = .big → number t a 1 = v / 16777216 ∧ number t (a + 2#32) 2 = v % 65536)) ∧
    ∀ s t rt base offset, Memory.wf s.mem = true → s.readReg rt = 0x11223344#32 →
      exec (.sw rt base offset) s = .next t →
      let a := ea s base offset
      (s.cfg.endian = .little → number t a 1 = 0x44 ∧ number t (a + 2#32) 2 = 0x1122) ∧
      (s.cfg.endian = .big → number t a 1 = 0x11 ∧ number t (a + 2#32) 2 = 0x3344)

/-! ## Floating point -/

/-- Each floating-point sum, difference, product and quotient of even registers completes with the result of the run's
`FP`: the default's pattern (some NaN where it gives none), or the host's function of the operands. -/
def Obligations.FloatArithmeticResults : Prop :=
  ∀ i s, allEven i →
    (∀ op fd fs ft, singleArithmetic i = some (op, fd, fs, ft) →
      (s.cfg.fp = .ieee754 →
        singleResult i s fd (arithBits single op (s.readSingle fs).toNat (s.readSingle ft).toNat)) ∧
      (s.cfg.fp = .hostDefined → setsSingle i s fd (Config.hostArith32 op (s.readSingle fs) (s.readSingle ft)) 0)) ∧
    ∀ op fd fs ft, doubleArithmetic i = some (op, fd, fs, ft) →
      (s.cfg.fp = .ieee754 →
        doubleResult i s fd (arithBits double op (s.readDouble fs).toNat (s.readDouble ft).toNat)) ∧
      (s.cfg.fp = .hostDefined → setsDouble i s fd (Config.hostArith64 op (s.readDouble fs) (s.readDouble ft)) 0)

/-- Of two numbers, a sum, difference, product or quotient (by a number that is not 0) is the pattern nearest to the
exact result, ties to even; so are a number converted to the other format and an integer converted to a format. -/
def Obligations.FloatResultsAreNearest : Prop :=
  ∀ fmt, (fmt = single ∨ fmt = double) →
    (∀ op x y p q, ratOf (fmt.valueOf x) = some p → ratOf (fmt.valueOf y) = some q → (op = .div → q ≠ 0) →
      ∃ b, arithBits fmt op x y = some b ∧ nearest fmt (exactly op p q) b) ∧
    (∀ source x p, (source = single ∨ source = double) → ratOf (source.valueOf x) = some p →
      ∃ b, convertBits source fmt x = some b ∧ nearest fmt p b) ∧
    ∀ v : Word, nearest fmt (v.toInt : ℚ) (integerBits fmt v.toInt)

/-- The NaNs, infinities and signed zeros of sums, differences, products and quotients. -/
def Obligations.FloatSpecialResults : Prop :=
  ∀ fmt op x y v, (fmt = single ∨ fmt = double) → specialResult op (fmt.valueOf x) (fmt.valueOf y) = some v →
    match v with
    | .nan => arithBits fmt op x y = none
    | .inf neg => ∃ b, arithBits fmt op x y = some b ∧ fmt.valueOf b = .inf neg
    | .fin neg _ _ => ∃ b, arithBits fmt op x y = some b ∧ fmt.valueOf b = .fin neg 0 fmt.minExp

/-- 48_floating_point.md R354, of which "set false otherwise" is derived and the default's values are general
knowledge, decision D24 (log 7): a comparison of even registers completes and writes `cc[1]` alone: under the default
`FP`, true exactly where the relation holds of the two numbers, so never with a NaN; else as the host's function says.
-/
def Obligations.FloatComparisons : Prop :=
  ∀ i s rel x y, floatComparison i s = some (rel, x, y) → allEven i →
    ∃ t, exec i s = .next t ∧ t.pc = s.pc + 4#32 ∧ (s.cfg.fp = .ieee754 → (t.readFlag 1#2 = true ↔ floatRelated rel x y)) ∧
      (s.cfg.fp = .hostDefined →
        (∀ fs ft, (i = .cEqS fs ft ∨ i = .cLeS fs ft ∨ i = .cLtS fs ft) →
          t.readFlag 1#2 = Config.hostCompare32 rel (s.readSingle fs) (s.readSingle ft)) ∧
        ∀ fs ft, (i = .cEqD fs ft ∨ i = .cLeD fs ft ∨ i = .cLtD fs ft) →
          t.readFlag 1#2 = Config.hostCompare64 rel (s.readDouble fs) (s.readDouble ft)) ∧
      (∀ z, z ≠ 1#2 → t.readFlag z = s.readFlag z) ∧ keepsRegs s t [] ∧ keepsCop s t [] ∧ keepsHiLo s t ∧
      keepsMemory s t [] ∧ keepsConsole s t ∧ keepsRun s t ∧ t.draws = s.draws

/-- Each conversion between formats, and from integer, completes with the result of the run's `FP`. -/
def Obligations.FloatConversionResults : Prop :=
  ∀ s fd fs, fd.toNat % 2 = 0 → fs.toNat % 2 = 0 →
    (s.cfg.fp = .ieee754 →
      doubleResult (.cvtDS fd fs) s fd (convertBits single double (s.readSingle fs).toNat) ∧
      singleResult (.cvtSD fd fs) s fd (convertBits double single (s.readDouble fs).toNat) ∧
      doubleResult (.cvtDW fd fs) s fd (some (integerBits double (s.readSingle fs).toInt)) ∧
      singleResult (.cvtSW fd fs) s fd (some (integerBits single (s.readSingle fs).toInt))) ∧
    (s.cfg.fp = .hostDefined →
      setsDouble (.cvtDS fd fs) s fd (Config.hostSingleToDouble (s.readSingle fs)) 0 ∧
      setsSingle (.cvtSD fd fs) s fd (Config.hostDoubleToSingle (s.readDouble fs)) 0 ∧
      setsDouble (.cvtDW fd fs) s fd (Config.hostIntToDouble (s.readSingle fs)) 0 ∧
      setsSingle (.cvtSW fd fs) s fd (Config.hostIntToSingle (s.readSingle fs)) 0)

/-- Whatever the other functions of `FP` are, a conversion to integer completes with the integer the run's `FP_CVT_W`
makes of the number; of a NaN, an infinity or a number whose integer does not fit, the result is drawn; a number that is an
integer in range converts exactly under every `FP_CVT_W` (R349). -/
def Obligations.ConversionToInteger : Prop :=
  ∀ i s fd x, toInteger i s = some (fd, x) → allEven i →
    (∀ n : Int, ratOf x = some (n : ℚ) → -2 ^ 31 ≤ n → n ≤ 2 ^ 31 - 1 → setsSingle i s fd (BitVec.ofInt 32 n) 0) ∧
    (∀ q n, ratOf x = some q → roundsTo s.cfg.cvtW q n → -2 ^ 31 ≤ n → n ≤ 2 ^ 31 - 1 →
      setsSingle i s fd (BitVec.ofInt 32 n) 0) ∧
    ((ratOf x = none ∨ ∃ q n, ratOf x = some q ∧ roundsTo s.cfg.cvtW q n ∧ (n < -2 ^ 31 ∨ 2 ^ 31 - 1 < n)) →
      setsSingle i s fd (Config.draw32 s.draws) 1)

/-- Conversions that widen are exact: a single as a double, and an integer as a double, is the same number; so an
integer converted to double and back is itself, under every `FP_CVT_W`. -/
def Obligations.WideningIsExact : Prop :=
  (∀ x b, convertBits single double x = some b → numberOf (double.valueOf b) = numberOf (single.valueOf x)) ∧
    (∀ v : Word, ratOf (double.valueOf (integerBits double v.toInt)) = some (v.toInt : ℚ)) ∧
    ∀ s fd fs gd, fd.toNat % 2 = 0 → fs.toNat % 2 = 0 → gd.toNat % 2 = 0 → s.cfg.fp = .ieee754 →
      ∃ t u, exec (.cvtDW fd fs) s = .next t ∧ exec (.cvtWD gd fd) t = .next u ∧ u.readSingle gd = s.readSingle fs ∧
        u.draws = s.draws

/-- `abs` clears the sign and `neg` inverts it, of any pattern but a NaN, which gives some NaN; `mov` copies every
pattern. -/
def Obligations.FloatSignsAndMoves : Prop :=
  ∀ s fd fs, fd.toNat % 2 = 0 → fs.toNat % 2 = 0 →
    setsSingle (.movS fd fs) s fd (s.readSingle fs) 0 ∧ setsDouble (.movD fd fs) s fd (s.readDouble fs) 0 ∧
    (single.valueOf (s.readSingle fs).toNat ≠ .nan →
      setsSingle (.absS fd fs) s fd (BitVec.ofNat 32 ((s.readSingle fs).toNat % 2 ^ 31)) 0 ∧
      setsSingle (.negS fd fs) s fd (BitVec.ofNat 32 ((s.readSingle fs).toNat + 2 ^ 31)) 0) ∧
    (single.valueOf (s.readSingle fs).toNat = .nan →
      singleResult (.absS fd fs) s fd none ∧ singleResult (.negS fd fs) s fd none) ∧
    (double.valueOf (s.readDouble fs).toNat ≠ .nan →
      setsDouble (.absD fd fs) s fd (BitVec.ofNat 64 ((s.readDouble fs).toNat % 2 ^ 63)) 0 ∧
      setsDouble (.negD fd fs) s fd (BitVec.ofNat 64 ((s.readDouble fs).toNat + 2 ^ 63)) 0) ∧
    (double.valueOf (s.readDouble fs).toNat = .nan →
      doubleResult (.absD fd fs) s fd none ∧ doubleResult (.negD fd fs) s fd none)

/-! ## Exceptions and services -/

/-- 49_exception_trap_syscall.md R372, whose opcode is general knowledge (90_conflicts.md C6): `break n` always raises
`Break(n)`, recording `n` and its own `pc`; its word holds `n` in bits 25:6 of `0xD`. -/
def Obligations.BreakRaises : Prop :=
  ∀ n s, exec (.brk n) s = .fault (.raised (.brk n) s.pc) ∧ (encode (.brk n)).toNat = n.toNat * 64 + 0xD ∧
    decodeWord (encode (.brk n)) = .ok (.brk n)

/-- R370 (refused by default: decision D28): `rfe`, the word `0x46000020`, is refused where `STATUS_RESTORE` is not
given; else it gives `status` that function's value and moves to the next instruction, changing nothing else. -/
def Obligations.RfeRestoresStatus : Prop :=
  (decodeWord 0x46000020#32 = .ok .rfe ∧ encode .rfe = 0x46000020#32) ∧
    (∀ s, s.cfg.statusRestore = .notSupplied → exec .rfe s = .refused .statusRestoreNotSupplied) ∧
    ∀ s, s.cfg.statusRestore = .supplied →
      ∃ t, exec .rfe s = .next t ∧ t.status = Config.restoredStatus s.status ∧ t.pc = s.pc + 4#32 ∧ keepsRegs s t [] ∧
        keepsCop s t [] ∧ keepsFlags s t ∧ keepsHiLo s t ∧ keepsMemory s t [] ∧ keepsConsole s t ∧ t.cfg = s.cfg ∧
        t.ended = s.ended ∧ t.draws = s.draws

/-- R373: `nop`, the all-zero word, moves to the next instruction and does nothing else; the word read as `sll $0, $0,
0` has the same effect. -/
def Obligations.NopDoesNothing : Prop :=
  decodeWord 0#32 = .ok .nop ∧
    ∀ s, exec .nop s = .next { s with pc := s.pc + 4#32 } ∧ exec (.sll 0#5 0#5 0#5 0#5) s = exec .nop s

/-- R378, R379, R380, R387: services 1, 2, 3 and 11 append their event to `host.out` and change nothing else but `pc`.
-/
def Obligations.PrintServices : Prop :=
  ∀ s e, printed s = some e → prints s e

/-- R381 (decision D29): service 4 prints the bytes up to the first zero byte; a byte that is not allocated before it
raises `BusError` with that byte's address; with every address allocated and no zero byte the form is refused. -/
def Obligations.PrintStringService : Prop :=
  ∀ s, s.readReg 2#5 = 4#32 →
    let a (k : Nat) : Word := s.readReg 4#5 + BitVec.ofNat 32 k
    (∀ n < 2 ^ 32, (∀ k < n, s.classAt (a k) ≠ .unmapped ∧ s.byteAt (a k) ≠ 0#8) → s.classAt (a n) ≠ .unmapped →
      s.byteAt (a n) = 0#8 → prints s (.printString ((List.range n).map fun k => s.byteAt (a k)))) ∧
    (∀ n < 2 ^ 32, (∀ k < n, s.classAt (a k) ≠ .unmapped ∧ s.byteAt (a k) ≠ 0#8) → s.classAt (a n) = .unmapped →
      exec .syscall s = .fault (.raised (.busError (a n)) s.pc)) ∧
    ((∀ k < 2 ^ 32, s.classAt (a k) ≠ .unmapped ∧ s.byteAt (a k) ≠ 0#8) →
      exec .syscall s = .refused (.endlessString (s.readReg 4#5)))

/-- Services 5, 6, 7 and 12 complete with the next value the run was given, or a free one, in their result register;
nothing else changes but `pc` and `host.in` (the queues are the model's choice, log 11). -/
def Obligations.ReadServices : Prop :=
  (∀ s, (s.readReg 2#5 = 5#32 ∨ s.readReg 2#5 = 12#32) →
    ∃ t, reads s t [2#5] [] [] ∧
      (∀ w rest, s.inWords = w :: rest → t.readReg 2#5 = w ∧ t.inWords = rest ∧ t.draws = s.draws) ∧
      (s.inWords = [] → t.readReg 2#5 = Config.hostWord s.draws ∧ t.inWords = [] ∧ t.draws = s.draws + 1)) ∧
    (∀ s, s.readReg 2#5 = 6#32 →
      ∃ t, reads s t [] [(1#2, 0#5)] [] ∧
        (∀ w rest, s.inWords = w :: rest → t.readSingle 0#5 = w ∧ t.inWords = rest ∧ t.draws = s.draws) ∧
        (s.inWords = [] → t.readSingle 0#5 = Config.hostWord s.draws ∧ t.inWords = [] ∧ t.draws = s.draws + 1)) ∧
    ∀ s, s.readReg 2#5 = 7#32 →
      ∃ t, reads s t [] [(1#2, 0#5), (1#2, 1#5)] [] ∧
        (∀ d rest, s.inDoubles = d :: rest → t.readDouble 0#5 = d ∧ t.inDoubles = rest ∧ t.draws = s.draws) ∧
        (s.inDoubles = [] → t.readDouble 0#5 = Config.hostDouble s.draws ∧ t.inDoubles = [] ∧ t.draws = s.draws + 1)

/-- Service 8 by its length `n`: below 1 it writes nothing; 1 writes a null byte; else it writes the string it makes
of a line and a null byte; no byte outside the buffer changes. The first byte of the buffer that is not data stops it
(the queue of lines is the model's choice, log 11, and so is the order of the checks, log 23). -/
def Obligations.ReadStringService : Prop :=
  ∀ s, s.readReg 2#5 = 8#32 →
    let n := (s.readReg 5#5).toInt
    let a (k : Nat) : Word := s.readReg 4#5 + BitVec.ofNat 32 k
    (n < 1 → ∃ t, reads s t [] [] [] ∧ t.inLines = s.inLines ∧ t.draws = s.draws) ∧
    (1 ≤ n → Memory.wf s.mem = true → (∀ k < n.toNat, s.classAt (a k) = .data) →
      (n = 1 → ∃ t, reads s t [] [] [a 0] ∧ t.byteAt (a 0) = 0#8 ∧ t.inLines = s.inLines) ∧
      (n ≠ 1 →
        let str := keptString (offeredLine s) n.toNat
        ∃ t, reads s t [] [] (bytesFrom (a 0) n.toNat) ∧ str.length < n.toNat ∧
          (∀ k < str.length, some (t.byteAt (a k)) = str[k]?) ∧ t.byteAt (a str.length) = 0#8 ∧
          t.inLines = s.inLines.tail)) ∧
    ∀ k : Nat, (k : Int) < n → (∀ j < k, s.classAt (a j) = .data) →
      (s.classAt (a k) = .unmapped → exec .syscall s = .fault (.raised (.busError (a k)) s.pc)) ∧
      (s.classAt (a k) = .text → exec .syscall s = .refused (.storeToText (a k)))

/-- R392 (decision D29): a `syscall` whose code has no service raises `UnknownSyscall` with the code. -/
def Obligations.UnknownServicesRaise : Prop :=
  ∀ s, s.readReg 2#5 ∉ [1#32, 2#32, 3#32, 4#32, 5#32, 6#32, 7#32, 8#32, 10#32, 11#32, 12#32] →
    exec .syscall s = .fault (.raised (.unknownSyscall (s.readReg 2#5)) s.pc)

/-! ## Pseudoinstructions and the assembler -/

/-- R38 (decision D18): after a pseudoinstruction `x[1]` holds a drawn value unless it is a destination; those that
work through the multiply and divide unit leave drawn values in `hi` and `lo`, the others but the forms of R109 keep
them; no other register changes; `pc` is at the next statement, or at the label of a branch. How a value is drawn, and
that `lo` is drawn before `hi` and both before `x[1]`, is the model's choice (log 13). -/
def Obligations.PseudoinstructionsEndAlike : Prop :=
  ∀ len p s t, execPseudo len p s = .next t →
    (1#5 ∉ pseudoDests p → ∃ k, s.draws ≤ k ∧ k < t.draws ∧ t.readReg 1#5 = Config.draw32 k) ∧
    keepsRegs s t (1#5 :: pseudoDests p) ∧ (pseudoUsesHiLo p = false → keepsHiLo s t) ∧
    (∀ op rd r c, p = .mulDiv op rd r c →
      ∃ j k, s.draws ≤ j ∧ j < k ∧ k < t.draws ∧ t.lo = Config.draw32 j ∧ t.hi = Config.draw32 k) ∧
    (t.pc = s.pc + BitVec.ofNat 32 (4 * len) ∨ pseudoLabel p = some t.pc)

/-- The pseudoinstructions of one result that leave memory and the multiply and divide unit alone: result or
`Overflow`; and `mfc1.d`, whose two destinations receive the two words of the pair, the first the even one (R306). -/
def Obligations.PseudoResults : Prop :=
  (∀ len p s rd r, p.wellFormed = true → pseudoResult p s = some (rd, r) →
    match r with
    | some v => pseudoSets len p s rd v false
    | none => execPseudo len p s = .fault (.raised .overflow s.pc)) ∧
    ∀ len (rd f : Reg) s, rd ≠ 31#5 → f.toNat % 2 = 0 →
      ∃ t, execPseudo len (.mfc1D rd f) s = .next t ∧ t.readReg rd = (if rd = 0#5 then 0#32 else s.readSingle f) ∧
        t.readReg (rd + 1#5) = s.readSingle (f + 1#5) ∧ t.pc = s.pc + BitVec.ofNat 32 (4 * len) ∧
        frame s t [rd, rd + 1#5, 1#5] [] []

/-- The multiply, divide and remainder pseudoinstructions: result, `DivideByZero` or `Overflow`. -/
def Obligations.PseudoMultiplyDivide : Prop :=
  ∀ len rd r c s, c.wellFormed = true →
    let a := s.readReg r
    let b := operand s c
    let overflow : Machine.Result := .fault (.raised .overflow s.pc)
    pseudoSets len (.mulDiv .mul rd r c) s rd (BitVec.ofNat 32 (a.toNat * b.toNat)) true ∧
    (-2 ^ 31 ≤ a.toInt * b.toInt → a.toInt * b.toInt ≤ 2 ^ 31 - 1 →
      pseudoSets len (.mulDiv .mulo rd r c) s rd (BitVec.ofInt 32 (a.toInt * b.toInt)) true) ∧
    ((a.toInt * b.toInt < -2 ^ 31 ∨ 2 ^ 31 - 1 < a.toInt * b.toInt) →
      execPseudo len (.mulDiv .mulo rd r c) s = overflow) ∧
    (a.toNat * b.toNat < 2 ^ 32 → pseudoSets len (.mulDiv .mulou rd r c) s rd (BitVec.ofNat 32 (a.toNat * b.toNat)) true) ∧
    (2 ^ 32 ≤ a.toNat * b.toNat → execPseudo len (.mulDiv .mulou rd r c) s = overflow) ∧
    (∀ op, op = .div ∨ op = .divu ∨ op = .rem ∨ op = .remu → b = 0#32 →
      execPseudo len (.mulDiv op rd r c) s = .fault (.raised .divideByZero s.pc)) ∧
    (∀ op, op = .div ∨ op = .rem → a.toInt = -2 ^ 31 → b.toInt = -1 →
      execPseudo len (.mulDiv op rd r c) s = overflow) ∧
    (b ≠ 0#32 →
      pseudoSets len (.mulDiv .divu rd r c) s rd (BitVec.ofNat 32 (a.toNat / b.toNat)) true ∧
      pseudoSets len (.mulDiv .remu rd r c) s rd (BitVec.ofNat 32 (a.toNat % b.toNat)) true) ∧
    (b ≠ 0#32 → ¬ (a.toInt = -2 ^ 31 ∧ b.toInt = -1) →
      ∃ q m, dividesTo s a b q m ∧ pseudoSets len (.mulDiv .div rd r c) s rd q true ∧
        pseudoSets len (.mulDiv .rem rd r c) s rd m true)

/-- A branch pseudoinstruction goes to its label where its condition holds, else to the next statement, and changes
nothing but `x[1]` and the count of draws. -/
def Obligations.PseudoBranches : Prop :=
  ∀ len p s c label, p.wellFormed = true → pseudoCondition p s = some (c, label) →
    ∃ t, execPseudo len p s = .next t ∧ (c → t.pc = label) ∧ (¬ c → t.pc = s.pc + BitVec.ofNat 32 (4 * len)) ∧
      frame s t [1#5] [] []

/-- The loads and stores of one value among the pseudoinstructions, aligned or not as each requires, and of the bytes of a
partial word: what they load or store, the exceptions of a misaligned address and of a byte that is not allocated, and the
refusal of a store to program text. That the forms of coprocessors other than 1 run is the model's choice (log 21), and so
is which of a byte that is not allocated and a byte of text decides in an unaligned store (log 39). -/
def Obligations.PseudoLoadsAndStores : Prop :=
  pseudoLoadsFollow ∧ pseudoCopLoadsFollow ∧ pseudoPartialLoadsFollow ∧ pseudoStoresFollow ∧ unalignedStoresFollow ∧
    pseudoPartialStoresFollow

/-- The double-word loads and stores: `ld` and `sd` pair registers and words by address, `l.d` and `s.d` move one 64-bit
number under the byte order; a double-word stored and loaded again is the pair that was stored. A misaligned address, a
byte that is not allocated and, in a store, a byte of program text stop them, the word at the address first and then the
next (log 22), also where the next is at address 0 (the model's choice, log 41). -/
def Obligations.DoubleWordsSurviveMemory : Prop := doubleLoadsFollow ∧ doubleStoresFollow ∧ doubleWordsReturn

/-- A statement in general form, with a register or a constant, has the one meaning of its operation, whichever machine
instruction or pseudoinstruction the assembler makes of it (R109); only `x[1]` may differ, and `pc` is past its words. So
have a plain load and a plain store of an `address` (R255; which of these are pseudoinstructions is the model's choice, log
40). `lui` takes the low 16 bits of its constant (R191). A constant out of range is refused (R406). -/
def Obligations.GeneralFormsAgree : Prop :=
  generalAluAgrees ∧ generalSetsAgree ∧ generalHiLoAgrees ∧ generalLoadsAgree ∧ generalStoresAgree ∧ constantsAreChecked

/-- A taken branch and a jump go to the target of their field, and the field the assembler computes is the one whose
target is the label; a label no field reaches is rejected (30_encoding.md R97, R98: general knowledge, decisions D8
and D9; `BRANCH_BASE` is the run's parameter, log 5). -/
def Obligations.AssembledTargetsReachLabels : Prop :=
  ∀ (s : State) (label : Word),
    (∀ offset, goesTo (.beq 0#5 0#5 offset) s (target s offset) []) ∧
    (∀ offset, branchOffset s label = .ok offset ↔ target s offset = label) ∧
    ((∀ offset, target s offset ≠ label) → branchOffset s label = .error (.refuses (.labelOutOfRange label))) ∧
    (∀ field, goesTo (.j field) s (farTarget s field) []) ∧
    (∀ field, jumpField s label = .ok field ↔ farTarget s field = label) ∧
    ((label.toNat / 2 ^ 28 ≠ (s.pc + 4#32).toNat / 2 ^ 28 ∨ label.toNat % 4 ≠ 0) →
      jumpField s label = .error (.refuses (.labelOutOfRange label)))
end

