-- ==== Sys2Proof/Laws/Decode.lean ====
section
/-! SUPPORT. The fields of a word built from fields, and a word rebuilt from its fields (30_encoding.md R81). -/

namespace Sys2Proof

/-- The six-field layout, rebuilt. -/
theorem word_eq_wordR (w : Word) :
    w = wordR (fieldOp w) (fieldRs w) (fieldRt w) (fieldRd w) (fieldSa w) (fieldFunct w) := by
  apply BitVec.eq_of_getLsbD_eq
  intro i hi
  simp only [wordR, fieldOp, fieldRs, fieldRt, fieldRd, fieldSa, fieldFunct, BitVec.getLsbD_cast, BitVec.getLsbD_append, BitVec.getLsbD_extractLsb']
  interval_cases i <;> simp

/-- The layout of format `I`, rebuilt. -/
theorem word_eq_wordI (w : Word) : w = wordI (fieldOp w) (fieldRs w) (fieldRt w) (fieldImm w) := by
  apply BitVec.eq_of_getLsbD_eq
  intro i hi
  simp only [wordI, fieldOp, fieldRs, fieldRt, fieldImm, BitVec.getLsbD_cast, BitVec.getLsbD_append, BitVec.getLsbD_extractLsb']
  interval_cases i <;> simp

/-- The layout of format `J`, rebuilt. -/
theorem word_eq_wordJ (w : Word) : w = wordJ (fieldOp w) (fieldTarget w) := by
  apply BitVec.eq_of_getLsbD_eq
  intro i hi
  simp only [wordJ, fieldOp, fieldTarget, BitVec.getLsbD_cast, BitVec.getLsbD_append, BitVec.getLsbD_extractLsb']
  interval_cases i <;> simp

/-- The layout of format `SY`, rebuilt. -/
theorem word_eq_wordS (w : Word) : w = wordS (fieldOp w) (fieldCode w) (fieldFunct w) := by
  apply BitVec.eq_of_getLsbD_eq
  intro i hi
  simp only [wordS, fieldOp, fieldCode, fieldFunct, BitVec.getLsbD_cast, BitVec.getLsbD_append, BitVec.getLsbD_extractLsb']
  interval_cases i <;> simp

variable (op : BitVec 6) (a b c d : BitVec 5) (fn : BitVec 6) (imm : BitVec 16) (target : BitVec 26) (code : BitVec 20)

@[simp] theorem fieldOp_wordR : fieldOp (wordR op a b c d fn) = op := by
  apply BitVec.eq_of_getLsbD_eq
  intro i hi
  simp only [fieldOp, wordR, BitVec.getLsbD_cast, BitVec.getLsbD_append, BitVec.getLsbD_extractLsb']
  interval_cases i <;> simp
@[simp] theorem fieldRs_wordR : fieldRs (wordR op a b c d fn) = a := by
  apply BitVec.eq_of_getLsbD_eq
  intro i hi
  simp only [fieldRs, wordR, BitVec.getLsbD_cast, BitVec.getLsbD_append, BitVec.getLsbD_extractLsb']
  interval_cases i <;> simp
@[simp] theorem fieldRt_wordR : fieldRt (wordR op a b c d fn) = b := by
  apply BitVec.eq_of_getLsbD_eq
  intro i hi
  simp only [fieldRt, wordR, BitVec.getLsbD_cast, BitVec.getLsbD_append, BitVec.getLsbD_extractLsb']
  interval_cases i <;> simp
@[simp] theorem fieldRd_wordR : fieldRd (wordR op a b c d fn) = c := by
  apply BitVec.eq_of_getLsbD_eq
  intro i hi
  simp only [fieldRd, wordR, BitVec.getLsbD_cast, BitVec.getLsbD_append, BitVec.getLsbD_extractLsb']
  interval_cases i <;> simp
@[simp] theorem fieldSa_wordR : fieldSa (wordR op a b c d fn) = d := by
  apply BitVec.eq_of_getLsbD_eq
  intro i hi
  simp only [fieldSa, wordR, BitVec.getLsbD_cast, BitVec.getLsbD_append, BitVec.getLsbD_extractLsb']
  interval_cases i <;> simp
@[simp] theorem fieldFunct_wordR : fieldFunct (wordR op a b c d fn) = fn := by
  apply BitVec.eq_of_getLsbD_eq
  intro i hi
  simp only [fieldFunct, wordR, BitVec.getLsbD_cast, BitVec.getLsbD_append, BitVec.getLsbD_extractLsb']
  interval_cases i <;> simp
@[simp] theorem fieldOp_wordI : fieldOp (wordI op a b imm) = op := by
  apply BitVec.eq_of_getLsbD_eq
  intro i hi
  simp only [fieldOp, wordI, BitVec.getLsbD_cast, BitVec.getLsbD_append, BitVec.getLsbD_extractLsb']
  interval_cases i <;> simp
@[simp] theorem fieldRs_wordI : fieldRs (wordI op a b imm) = a := by
  apply BitVec.eq_of_getLsbD_eq
  intro i hi
  simp only [fieldRs, wordI, BitVec.getLsbD_cast, BitVec.getLsbD_append, BitVec.getLsbD_extractLsb']
  interval_cases i <;> simp
@[simp] theorem fieldRt_wordI : fieldRt (wordI op a b imm) = b := by
  apply BitVec.eq_of_getLsbD_eq
  intro i hi
  simp only [fieldRt, wordI, BitVec.getLsbD_cast, BitVec.getLsbD_append, BitVec.getLsbD_extractLsb']
  interval_cases i <;> simp
@[simp] theorem fieldImm_wordI : fieldImm (wordI op a b imm) = imm := by
  apply BitVec.eq_of_getLsbD_eq
  intro i hi
  simp only [fieldImm, wordI, BitVec.getLsbD_cast, BitVec.getLsbD_append, BitVec.getLsbD_extractLsb']
  interval_cases i <;> simp
@[simp] theorem fieldOp_wordJ : fieldOp (wordJ op target) = op := by
  apply BitVec.eq_of_getLsbD_eq
  intro i hi
  simp only [fieldOp, wordJ, BitVec.getLsbD_cast, BitVec.getLsbD_append, BitVec.getLsbD_extractLsb']
  interval_cases i <;> simp
@[simp] theorem fieldTarget_wordJ : fieldTarget (wordJ op target) = target := by
  apply BitVec.eq_of_getLsbD_eq
  intro i hi
  simp only [fieldTarget, wordJ, BitVec.getLsbD_cast, BitVec.getLsbD_append, BitVec.getLsbD_extractLsb']
  interval_cases i <;> simp
@[simp] theorem fieldOp_wordS : fieldOp (wordS op code fn) = op := by
  apply BitVec.eq_of_getLsbD_eq
  intro i hi
  simp only [fieldOp, wordS, BitVec.getLsbD_cast, BitVec.getLsbD_append, BitVec.getLsbD_extractLsb']
  interval_cases i <;> simp
@[simp] theorem fieldCode_wordS : fieldCode (wordS op code fn) = code := by
  apply BitVec.eq_of_getLsbD_eq
  intro i hi
  simp only [fieldCode, wordS, BitVec.getLsbD_cast, BitVec.getLsbD_append, BitVec.getLsbD_extractLsb']
  interval_cases i <;> simp
@[simp] theorem fieldFunct_wordS : fieldFunct (wordS op code fn) = fn := by
  apply BitVec.eq_of_getLsbD_eq
  intro i hi
  simp only [fieldFunct, wordS, BitVec.getLsbD_cast, BitVec.getLsbD_append, BitVec.getLsbD_extractLsb']
  interval_cases i <;> simp

/-- The coprocessor number is the low two bits of the opcode (R83). -/
theorem fieldZ_eq (w : Word) : fieldZ w = (fieldOp w).extractLsb' 0 2 := by
  apply BitVec.eq_of_getLsbD_eq
  intro i hi
  simp only [fieldZ, fieldOp, BitVec.getLsbD_extractLsb']
  interval_cases i <;> simp

@[simp] theorem fieldZ_wordR : fieldZ (wordR op a b c d fn) = op.extractLsb' 0 2 := by simp [fieldZ_eq]
@[simp] theorem fieldZ_wordI : fieldZ (wordI op a b imm) = op.extractLsb' 0 2 := by simp [fieldZ_eq]

/-- The `code` field is the four 5-bit fields below `op`, above `funct`. -/
theorem fieldCode_wordR : fieldCode (wordR op a b c d fn) = (a ++ b ++ c ++ d).cast rfl := by
  apply BitVec.eq_of_getLsbD_eq
  intro i hi
  simp only [fieldCode, wordR, BitVec.getLsbD_cast, BitVec.getLsbD_append, BitVec.getLsbD_extractLsb']
  interval_cases i <;> simp

/-- The low two bits of an opcode that holds a coprocessor number (R83). -/
@[simp] theorem opZ_low (high : BitVec 4) (z : CopNum) : (opZ high z).extractLsb' 0 2 = z := by
  revert high z; decide

/-- The four opcodes of a coprocessor instruction, by its number (R83). -/
theorem opZ_cases (z : CopNum) :
    (z = 0#2 ∨ z = 1#2) ∨ (z = 2#2 ∨ z = 3#2) := by
  revert z; decide

end Sys2Proof
end

