-- ==== Sys2Proof/Laws/State.lean ====
section
/-! SUPPORT. One lemma for each field of the state, and for each view of it, under each update: no later proof unfolds a
record update. -/

namespace Sys2Proof.Machine

variable (s : State)

@[simp] theorem State.writeReg_regs (q : Reg) (v : Word) : (s.writeReg q v).regs = if q = 0#5 then s.regs else s.regs.set q.toNat v q.isLt := rfl
@[simp] theorem State.writeReg_pc (q : Reg) (v : Word) : (s.writeReg q v).pc = s.pc := rfl
@[simp] theorem State.writeReg_hi (q : Reg) (v : Word) : (s.writeReg q v).hi = s.hi := rfl
@[simp] theorem State.writeReg_lo (q : Reg) (v : Word) : (s.writeReg q v).lo = s.lo := rfl
@[simp] theorem State.writeReg_cop (q : Reg) (v : Word) : (s.writeReg q v).cop = s.cop := rfl
@[simp] theorem State.writeReg_cc (q : Reg) (v : Word) : (s.writeReg q v).cc = s.cc := rfl
@[simp] theorem State.writeReg_status (q : Reg) (v : Word) : (s.writeReg q v).status = s.status := rfl
@[simp] theorem State.writeReg_mem (q : Reg) (v : Word) : (s.writeReg q v).mem = s.mem := rfl
@[simp] theorem State.writeReg_out (q : Reg) (v : Word) : (s.writeReg q v).out = s.out := rfl
@[simp] theorem State.writeReg_inWords (q : Reg) (v : Word) : (s.writeReg q v).inWords = s.inWords := rfl
@[simp] theorem State.writeReg_inDoubles (q : Reg) (v : Word) : (s.writeReg q v).inDoubles = s.inDoubles := rfl
@[simp] theorem State.writeReg_inLines (q : Reg) (v : Word) : (s.writeReg q v).inLines = s.inLines := rfl
@[simp] theorem State.writeReg_draws (q : Reg) (v : Word) : (s.writeReg q v).draws = s.draws := rfl
@[simp] theorem State.writeReg_ended (q : Reg) (v : Word) : (s.writeReg q v).ended = s.ended := rfl
@[simp] theorem State.writeReg_cfg (q : Reg) (v : Word) : (s.writeReg q v).cfg = s.cfg := rfl
@[simp] theorem State.writeReg_readCop (q : Reg) (v : Word) (z : CopNum) (i : Reg) : (s.writeReg q v).readCop z i = s.readCop z i := rfl
@[simp] theorem State.writeReg_readSingle (q : Reg) (v : Word) (i : Reg) : (s.writeReg q v).readSingle i = s.readSingle i := rfl
@[simp] theorem State.writeReg_readDouble (q : Reg) (v : Word) (i : Reg) : (s.writeReg q v).readDouble i = s.readDouble i := rfl
@[simp] theorem State.writeReg_readFlag (q : Reg) (v : Word) (z : CopNum) : (s.writeReg q v).readFlag z = s.readFlag z := rfl
@[simp] theorem State.writeReg_byteAt (q : Reg) (v : Word) (a : Word) : (s.writeReg q v).byteAt a = s.byteAt a := rfl
@[simp] theorem State.writeReg_halfAt (q : Reg) (v : Word) (a : Word) : (s.writeReg q v).halfAt a = s.halfAt a := rfl
@[simp] theorem State.writeReg_wordAt (q : Reg) (v : Word) (a : Word) : (s.writeReg q v).wordAt a = s.wordAt a := rfl
@[simp] theorem State.writeReg_classAt (q : Reg) (v : Word) (a : Word) : (s.writeReg q v).classAt a = s.classAt a := rfl
@[simp] theorem State.writeReg_nextPc (q : Reg) (v : Word) : (s.writeReg q v).nextPc = s.nextPc := rfl

@[simp] theorem State.writeCop_regs (y : CopNum) (j : Reg) (v : Word) : (s.writeCop y j v).regs = s.regs := rfl
@[simp] theorem State.writeCop_pc (y : CopNum) (j : Reg) (v : Word) : (s.writeCop y j v).pc = s.pc := rfl
@[simp] theorem State.writeCop_hi (y : CopNum) (j : Reg) (v : Word) : (s.writeCop y j v).hi = s.hi := rfl
@[simp] theorem State.writeCop_lo (y : CopNum) (j : Reg) (v : Word) : (s.writeCop y j v).lo = s.lo := rfl
@[simp] theorem State.writeCop_cc (y : CopNum) (j : Reg) (v : Word) : (s.writeCop y j v).cc = s.cc := rfl
@[simp] theorem State.writeCop_status (y : CopNum) (j : Reg) (v : Word) : (s.writeCop y j v).status = s.status := rfl
@[simp] theorem State.writeCop_mem (y : CopNum) (j : Reg) (v : Word) : (s.writeCop y j v).mem = s.mem := rfl
@[simp] theorem State.writeCop_out (y : CopNum) (j : Reg) (v : Word) : (s.writeCop y j v).out = s.out := rfl
@[simp] theorem State.writeCop_inWords (y : CopNum) (j : Reg) (v : Word) : (s.writeCop y j v).inWords = s.inWords := rfl
@[simp] theorem State.writeCop_inDoubles (y : CopNum) (j : Reg) (v : Word) : (s.writeCop y j v).inDoubles = s.inDoubles := rfl
@[simp] theorem State.writeCop_inLines (y : CopNum) (j : Reg) (v : Word) : (s.writeCop y j v).inLines = s.inLines := rfl
@[simp] theorem State.writeCop_draws (y : CopNum) (j : Reg) (v : Word) : (s.writeCop y j v).draws = s.draws := rfl
@[simp] theorem State.writeCop_ended (y : CopNum) (j : Reg) (v : Word) : (s.writeCop y j v).ended = s.ended := rfl
@[simp] theorem State.writeCop_cfg (y : CopNum) (j : Reg) (v : Word) : (s.writeCop y j v).cfg = s.cfg := rfl
@[simp] theorem State.writeCop_readReg (y : CopNum) (j : Reg) (v : Word) (r : Reg) : (s.writeCop y j v).readReg r = s.readReg r := rfl
@[simp] theorem State.writeCop_readFlag (y : CopNum) (j : Reg) (v : Word) (z : CopNum) : (s.writeCop y j v).readFlag z = s.readFlag z := rfl
@[simp] theorem State.writeCop_byteAt (y : CopNum) (j : Reg) (v : Word) (a : Word) : (s.writeCop y j v).byteAt a = s.byteAt a := rfl
@[simp] theorem State.writeCop_halfAt (y : CopNum) (j : Reg) (v : Word) (a : Word) : (s.writeCop y j v).halfAt a = s.halfAt a := rfl
@[simp] theorem State.writeCop_wordAt (y : CopNum) (j : Reg) (v : Word) (a : Word) : (s.writeCop y j v).wordAt a = s.wordAt a := rfl
@[simp] theorem State.writeCop_classAt (y : CopNum) (j : Reg) (v : Word) (a : Word) : (s.writeCop y j v).classAt a = s.classAt a := rfl
@[simp] theorem State.writeCop_nextPc (y : CopNum) (j : Reg) (v : Word) : (s.writeCop y j v).nextPc = s.nextPc := rfl

@[simp] theorem State.writeSingle_regs (j : Reg) (v : Word) : (s.writeSingle j v).regs = s.regs := rfl
@[simp] theorem State.writeSingle_pc (j : Reg) (v : Word) : (s.writeSingle j v).pc = s.pc := rfl
@[simp] theorem State.writeSingle_hi (j : Reg) (v : Word) : (s.writeSingle j v).hi = s.hi := rfl
@[simp] theorem State.writeSingle_lo (j : Reg) (v : Word) : (s.writeSingle j v).lo = s.lo := rfl
@[simp] theorem State.writeSingle_cc (j : Reg) (v : Word) : (s.writeSingle j v).cc = s.cc := rfl
@[simp] theorem State.writeSingle_status (j : Reg) (v : Word) : (s.writeSingle j v).status = s.status := rfl
@[simp] theorem State.writeSingle_mem (j : Reg) (v : Word) : (s.writeSingle j v).mem = s.mem := rfl
@[simp] theorem State.writeSingle_out (j : Reg) (v : Word) : (s.writeSingle j v).out = s.out := rfl
@[simp] theorem State.writeSingle_inWords (j : Reg) (v : Word) : (s.writeSingle j v).inWords = s.inWords := rfl
@[simp] theorem State.writeSingle_inDoubles (j : Reg) (v : Word) : (s.writeSingle j v).inDoubles = s.inDoubles := rfl
@[simp] theorem State.writeSingle_inLines (j : Reg) (v : Word) : (s.writeSingle j v).inLines = s.inLines := rfl
@[simp] theorem State.writeSingle_draws (j : Reg) (v : Word) : (s.writeSingle j v).draws = s.draws := rfl
@[simp] theorem State.writeSingle_ended (j : Reg) (v : Word) : (s.writeSingle j v).ended = s.ended := rfl
@[simp] theorem State.writeSingle_cfg (j : Reg) (v : Word) : (s.writeSingle j v).cfg = s.cfg := rfl
@[simp] theorem State.writeSingle_readReg (j : Reg) (v : Word) (r : Reg) : (s.writeSingle j v).readReg r = s.readReg r := rfl
@[simp] theorem State.writeSingle_readFlag (j : Reg) (v : Word) (z : CopNum) : (s.writeSingle j v).readFlag z = s.readFlag z := rfl
@[simp] theorem State.writeSingle_byteAt (j : Reg) (v : Word) (a : Word) : (s.writeSingle j v).byteAt a = s.byteAt a := rfl
@[simp] theorem State.writeSingle_halfAt (j : Reg) (v : Word) (a : Word) : (s.writeSingle j v).halfAt a = s.halfAt a := rfl
@[simp] theorem State.writeSingle_wordAt (j : Reg) (v : Word) (a : Word) : (s.writeSingle j v).wordAt a = s.wordAt a := rfl
@[simp] theorem State.writeSingle_classAt (j : Reg) (v : Word) (a : Word) : (s.writeSingle j v).classAt a = s.classAt a := rfl
@[simp] theorem State.writeSingle_nextPc (j : Reg) (v : Word) : (s.writeSingle j v).nextPc = s.nextPc := rfl

@[simp] theorem State.writeDouble_regs (j : Reg) (v : DWord) : (s.writeDouble j v).regs = s.regs := rfl
@[simp] theorem State.writeDouble_pc (j : Reg) (v : DWord) : (s.writeDouble j v).pc = s.pc := rfl
@[simp] theorem State.writeDouble_hi (j : Reg) (v : DWord) : (s.writeDouble j v).hi = s.hi := rfl
@[simp] theorem State.writeDouble_lo (j : Reg) (v : DWord) : (s.writeDouble j v).lo = s.lo := rfl
@[simp] theorem State.writeDouble_cc (j : Reg) (v : DWord) : (s.writeDouble j v).cc = s.cc := rfl
@[simp] theorem State.writeDouble_status (j : Reg) (v : DWord) : (s.writeDouble j v).status = s.status := rfl
@[simp] theorem State.writeDouble_mem (j : Reg) (v : DWord) : (s.writeDouble j v).mem = s.mem := rfl
@[simp] theorem State.writeDouble_out (j : Reg) (v : DWord) : (s.writeDouble j v).out = s.out := rfl
@[simp] theorem State.writeDouble_inWords (j : Reg) (v : DWord) : (s.writeDouble j v).inWords = s.inWords := rfl
@[simp] theorem State.writeDouble_inDoubles (j : Reg) (v : DWord) : (s.writeDouble j v).inDoubles = s.inDoubles := rfl
@[simp] theorem State.writeDouble_inLines (j : Reg) (v : DWord) : (s.writeDouble j v).inLines = s.inLines := rfl
@[simp] theorem State.writeDouble_draws (j : Reg) (v : DWord) : (s.writeDouble j v).draws = s.draws := rfl
@[simp] theorem State.writeDouble_ended (j : Reg) (v : DWord) : (s.writeDouble j v).ended = s.ended := rfl
@[simp] theorem State.writeDouble_cfg (j : Reg) (v : DWord) : (s.writeDouble j v).cfg = s.cfg := rfl
@[simp] theorem State.writeDouble_readReg (j : Reg) (v : DWord) (r : Reg) : (s.writeDouble j v).readReg r = s.readReg r := rfl
@[simp] theorem State.writeDouble_readFlag (j : Reg) (v : DWord) (z : CopNum) : (s.writeDouble j v).readFlag z = s.readFlag z := rfl
@[simp] theorem State.writeDouble_byteAt (j : Reg) (v : DWord) (a : Word) : (s.writeDouble j v).byteAt a = s.byteAt a := rfl
@[simp] theorem State.writeDouble_halfAt (j : Reg) (v : DWord) (a : Word) : (s.writeDouble j v).halfAt a = s.halfAt a := rfl
@[simp] theorem State.writeDouble_wordAt (j : Reg) (v : DWord) (a : Word) : (s.writeDouble j v).wordAt a = s.wordAt a := rfl
@[simp] theorem State.writeDouble_classAt (j : Reg) (v : DWord) (a : Word) : (s.writeDouble j v).classAt a = s.classAt a := rfl
@[simp] theorem State.writeDouble_nextPc (j : Reg) (v : DWord) : (s.writeDouble j v).nextPc = s.nextPc := rfl

@[simp] theorem State.writeFlag_regs (y : CopNum) (b : Bool) : (s.writeFlag y b).regs = s.regs := rfl
@[simp] theorem State.writeFlag_pc (y : CopNum) (b : Bool) : (s.writeFlag y b).pc = s.pc := rfl
@[simp] theorem State.writeFlag_hi (y : CopNum) (b : Bool) : (s.writeFlag y b).hi = s.hi := rfl
@[simp] theorem State.writeFlag_lo (y : CopNum) (b : Bool) : (s.writeFlag y b).lo = s.lo := rfl
@[simp] theorem State.writeFlag_cop (y : CopNum) (b : Bool) : (s.writeFlag y b).cop = s.cop := rfl
@[simp] theorem State.writeFlag_status (y : CopNum) (b : Bool) : (s.writeFlag y b).status = s.status := rfl
@[simp] theorem State.writeFlag_mem (y : CopNum) (b : Bool) : (s.writeFlag y b).mem = s.mem := rfl
@[simp] theorem State.writeFlag_out (y : CopNum) (b : Bool) : (s.writeFlag y b).out = s.out := rfl
@[simp] theorem State.writeFlag_inWords (y : CopNum) (b : Bool) : (s.writeFlag y b).inWords = s.inWords := rfl
@[simp] theorem State.writeFlag_inDoubles (y : CopNum) (b : Bool) : (s.writeFlag y b).inDoubles = s.inDoubles := rfl
@[simp] theorem State.writeFlag_inLines (y : CopNum) (b : Bool) : (s.writeFlag y b).inLines = s.inLines := rfl
@[simp] theorem State.writeFlag_draws (y : CopNum) (b : Bool) : (s.writeFlag y b).draws = s.draws := rfl
@[simp] theorem State.writeFlag_ended (y : CopNum) (b : Bool) : (s.writeFlag y b).ended = s.ended := rfl
@[simp] theorem State.writeFlag_cfg (y : CopNum) (b : Bool) : (s.writeFlag y b).cfg = s.cfg := rfl
@[simp] theorem State.writeFlag_readReg (y : CopNum) (b : Bool) (r : Reg) : (s.writeFlag y b).readReg r = s.readReg r := rfl
@[simp] theorem State.writeFlag_readCop (y : CopNum) (b : Bool) (z : CopNum) (i : Reg) : (s.writeFlag y b).readCop z i = s.readCop z i := rfl
@[simp] theorem State.writeFlag_readSingle (y : CopNum) (b : Bool) (i : Reg) : (s.writeFlag y b).readSingle i = s.readSingle i := rfl
@[simp] theorem State.writeFlag_readDouble (y : CopNum) (b : Bool) (i : Reg) : (s.writeFlag y b).readDouble i = s.readDouble i := rfl
@[simp] theorem State.writeFlag_byteAt (y : CopNum) (b : Bool) (a : Word) : (s.writeFlag y b).byteAt a = s.byteAt a := rfl
@[simp] theorem State.writeFlag_halfAt (y : CopNum) (b : Bool) (a : Word) : (s.writeFlag y b).halfAt a = s.halfAt a := rfl
@[simp] theorem State.writeFlag_wordAt (y : CopNum) (b : Bool) (a : Word) : (s.writeFlag y b).wordAt a = s.wordAt a := rfl
@[simp] theorem State.writeFlag_classAt (y : CopNum) (b : Bool) (a : Word) : (s.writeFlag y b).classAt a = s.classAt a := rfl
@[simp] theorem State.writeFlag_nextPc (y : CopNum) (b : Bool) : (s.writeFlag y b).nextPc = s.nextPc := rfl

@[simp] theorem State.writeHiLo_regs (h l : Word) : (s.writeHiLo h l).regs = s.regs := rfl
@[simp] theorem State.writeHiLo_pc (h l : Word) : (s.writeHiLo h l).pc = s.pc := rfl
@[simp] theorem State.writeHiLo_hi (h l : Word) : (s.writeHiLo h l).hi = h := rfl
@[simp] theorem State.writeHiLo_lo (h l : Word) : (s.writeHiLo h l).lo = l := rfl
@[simp] theorem State.writeHiLo_cop (h l : Word) : (s.writeHiLo h l).cop = s.cop := rfl
@[simp] theorem State.writeHiLo_cc (h l : Word) : (s.writeHiLo h l).cc = s.cc := rfl
@[simp] theorem State.writeHiLo_status (h l : Word) : (s.writeHiLo h l).status = s.status := rfl
@[simp] theorem State.writeHiLo_mem (h l : Word) : (s.writeHiLo h l).mem = s.mem := rfl
@[simp] theorem State.writeHiLo_out (h l : Word) : (s.writeHiLo h l).out = s.out := rfl
@[simp] theorem State.writeHiLo_inWords (h l : Word) : (s.writeHiLo h l).inWords = s.inWords := rfl
@[simp] theorem State.writeHiLo_inDoubles (h l : Word) : (s.writeHiLo h l).inDoubles = s.inDoubles := rfl
@[simp] theorem State.writeHiLo_inLines (h l : Word) : (s.writeHiLo h l).inLines = s.inLines := rfl
@[simp] theorem State.writeHiLo_draws (h l : Word) : (s.writeHiLo h l).draws = s.draws := rfl
@[simp] theorem State.writeHiLo_ended (h l : Word) : (s.writeHiLo h l).ended = s.ended := rfl
@[simp] theorem State.writeHiLo_cfg (h l : Word) : (s.writeHiLo h l).cfg = s.cfg := rfl
@[simp] theorem State.writeHiLo_readReg (h l : Word) (r : Reg) : (s.writeHiLo h l).readReg r = s.readReg r := rfl
@[simp] theorem State.writeHiLo_readCop (h l : Word) (z : CopNum) (i : Reg) : (s.writeHiLo h l).readCop z i = s.readCop z i := rfl
@[simp] theorem State.writeHiLo_readSingle (h l : Word) (i : Reg) : (s.writeHiLo h l).readSingle i = s.readSingle i := rfl
@[simp] theorem State.writeHiLo_readDouble (h l : Word) (i : Reg) : (s.writeHiLo h l).readDouble i = s.readDouble i := rfl
@[simp] theorem State.writeHiLo_readFlag (h l : Word) (z : CopNum) : (s.writeHiLo h l).readFlag z = s.readFlag z := rfl
@[simp] theorem State.writeHiLo_byteAt (h l : Word) (a : Word) : (s.writeHiLo h l).byteAt a = s.byteAt a := rfl
@[simp] theorem State.writeHiLo_halfAt (h l : Word) (a : Word) : (s.writeHiLo h l).halfAt a = s.halfAt a := rfl
@[simp] theorem State.writeHiLo_wordAt (h l : Word) (a : Word) : (s.writeHiLo h l).wordAt a = s.wordAt a := rfl
@[simp] theorem State.writeHiLo_classAt (h l : Word) (a : Word) : (s.writeHiLo h l).classAt a = s.classAt a := rfl
@[simp] theorem State.writeHiLo_nextPc (h l : Word) : (s.writeHiLo h l).nextPc = s.nextPc := rfl

@[simp] theorem State.afterDraws_regs (n : Nat) : (s.afterDraws n).regs = s.regs := rfl
@[simp] theorem State.afterDraws_pc (n : Nat) : (s.afterDraws n).pc = s.pc := rfl
@[simp] theorem State.afterDraws_hi (n : Nat) : (s.afterDraws n).hi = s.hi := rfl
@[simp] theorem State.afterDraws_lo (n : Nat) : (s.afterDraws n).lo = s.lo := rfl
@[simp] theorem State.afterDraws_cop (n : Nat) : (s.afterDraws n).cop = s.cop := rfl
@[simp] theorem State.afterDraws_cc (n : Nat) : (s.afterDraws n).cc = s.cc := rfl
@[simp] theorem State.afterDraws_status (n : Nat) : (s.afterDraws n).status = s.status := rfl
@[simp] theorem State.afterDraws_mem (n : Nat) : (s.afterDraws n).mem = s.mem := rfl
@[simp] theorem State.afterDraws_out (n : Nat) : (s.afterDraws n).out = s.out := rfl
@[simp] theorem State.afterDraws_inWords (n : Nat) : (s.afterDraws n).inWords = s.inWords := rfl
@[simp] theorem State.afterDraws_inDoubles (n : Nat) : (s.afterDraws n).inDoubles = s.inDoubles := rfl
@[simp] theorem State.afterDraws_inLines (n : Nat) : (s.afterDraws n).inLines = s.inLines := rfl
@[simp] theorem State.afterDraws_draws (n : Nat) : (s.afterDraws n).draws = s.draws + n := rfl
@[simp] theorem State.afterDraws_ended (n : Nat) : (s.afterDraws n).ended = s.ended := rfl
@[simp] theorem State.afterDraws_cfg (n : Nat) : (s.afterDraws n).cfg = s.cfg := rfl
@[simp] theorem State.afterDraws_readReg (n : Nat) (r : Reg) : (s.afterDraws n).readReg r = s.readReg r := rfl
@[simp] theorem State.afterDraws_readCop (n : Nat) (z : CopNum) (i : Reg) : (s.afterDraws n).readCop z i = s.readCop z i := rfl
@[simp] theorem State.afterDraws_readSingle (n : Nat) (i : Reg) : (s.afterDraws n).readSingle i = s.readSingle i := rfl
@[simp] theorem State.afterDraws_readDouble (n : Nat) (i : Reg) : (s.afterDraws n).readDouble i = s.readDouble i := rfl
@[simp] theorem State.afterDraws_readFlag (n : Nat) (z : CopNum) : (s.afterDraws n).readFlag z = s.readFlag z := rfl
@[simp] theorem State.afterDraws_byteAt (n : Nat) (a : Word) : (s.afterDraws n).byteAt a = s.byteAt a := rfl
@[simp] theorem State.afterDraws_halfAt (n : Nat) (a : Word) : (s.afterDraws n).halfAt a = s.halfAt a := rfl
@[simp] theorem State.afterDraws_wordAt (n : Nat) (a : Word) : (s.afterDraws n).wordAt a = s.wordAt a := rfl
@[simp] theorem State.afterDraws_classAt (n : Nat) (a : Word) : (s.afterDraws n).classAt a = s.classAt a := rfl
@[simp] theorem State.afterDraws_nextPc (n : Nat) : (s.afterDraws n).nextPc = s.nextPc := rfl

@[simp] theorem State.jump_regs (t : Word) : (s.jump t).regs = s.regs := rfl
@[simp] theorem State.jump_pc (t : Word) : (s.jump t).pc = t := rfl
@[simp] theorem State.jump_hi (t : Word) : (s.jump t).hi = s.hi := rfl
@[simp] theorem State.jump_lo (t : Word) : (s.jump t).lo = s.lo := rfl
@[simp] theorem State.jump_cop (t : Word) : (s.jump t).cop = s.cop := rfl
@[simp] theorem State.jump_cc (t : Word) : (s.jump t).cc = s.cc := rfl
@[simp] theorem State.jump_status (t : Word) : (s.jump t).status = s.status := rfl
@[simp] theorem State.jump_mem (t : Word) : (s.jump t).mem = s.mem := rfl
@[simp] theorem State.jump_out (t : Word) : (s.jump t).out = s.out := rfl
@[simp] theorem State.jump_inWords (t : Word) : (s.jump t).inWords = s.inWords := rfl
@[simp] theorem State.jump_inDoubles (t : Word) : (s.jump t).inDoubles = s.inDoubles := rfl
@[simp] theorem State.jump_inLines (t : Word) : (s.jump t).inLines = s.inLines := rfl
@[simp] theorem State.jump_draws (t : Word) : (s.jump t).draws = s.draws := rfl
@[simp] theorem State.jump_ended (t : Word) : (s.jump t).ended = s.ended := rfl
@[simp] theorem State.jump_cfg (t : Word) : (s.jump t).cfg = s.cfg := rfl
@[simp] theorem State.jump_readReg (t : Word) (r : Reg) : (s.jump t).readReg r = s.readReg r := rfl
@[simp] theorem State.jump_readCop (t : Word) (z : CopNum) (i : Reg) : (s.jump t).readCop z i = s.readCop z i := rfl
@[simp] theorem State.jump_readSingle (t : Word) (i : Reg) : (s.jump t).readSingle i = s.readSingle i := rfl
@[simp] theorem State.jump_readDouble (t : Word) (i : Reg) : (s.jump t).readDouble i = s.readDouble i := rfl
@[simp] theorem State.jump_readFlag (t : Word) (z : CopNum) : (s.jump t).readFlag z = s.readFlag z := rfl
@[simp] theorem State.jump_byteAt (t : Word) (a : Word) : (s.jump t).byteAt a = s.byteAt a := rfl
@[simp] theorem State.jump_halfAt (t : Word) (a : Word) : (s.jump t).halfAt a = s.halfAt a := rfl
@[simp] theorem State.jump_wordAt (t : Word) (a : Word) : (s.jump t).wordAt a = s.wordAt a := rfl
@[simp] theorem State.jump_classAt (t : Word) (a : Word) : (s.jump t).classAt a = s.classAt a := rfl

@[simp] theorem State.restoreStatus_regs : s.restoreStatus.regs = s.regs := rfl
@[simp] theorem State.restoreStatus_pc : s.restoreStatus.pc = s.pc := rfl
@[simp] theorem State.restoreStatus_hi : s.restoreStatus.hi = s.hi := rfl
@[simp] theorem State.restoreStatus_lo : s.restoreStatus.lo = s.lo := rfl
@[simp] theorem State.restoreStatus_cop : s.restoreStatus.cop = s.cop := rfl
@[simp] theorem State.restoreStatus_cc : s.restoreStatus.cc = s.cc := rfl
@[simp] theorem State.restoreStatus_status : s.restoreStatus.status = Config.restoredStatus s.status := rfl
@[simp] theorem State.restoreStatus_mem : s.restoreStatus.mem = s.mem := rfl
@[simp] theorem State.restoreStatus_out : s.restoreStatus.out = s.out := rfl
@[simp] theorem State.restoreStatus_inWords : s.restoreStatus.inWords = s.inWords := rfl
@[simp] theorem State.restoreStatus_inDoubles : s.restoreStatus.inDoubles = s.inDoubles := rfl
@[simp] theorem State.restoreStatus_inLines : s.restoreStatus.inLines = s.inLines := rfl
@[simp] theorem State.restoreStatus_draws : s.restoreStatus.draws = s.draws := rfl
@[simp] theorem State.restoreStatus_ended : s.restoreStatus.ended = s.ended := rfl
@[simp] theorem State.restoreStatus_cfg : s.restoreStatus.cfg = s.cfg := rfl
@[simp] theorem State.restoreStatus_readReg (r : Reg) : s.restoreStatus.readReg r = s.readReg r := rfl
@[simp] theorem State.restoreStatus_readCop (z : CopNum) (i : Reg) : s.restoreStatus.readCop z i = s.readCop z i := rfl
@[simp] theorem State.restoreStatus_readSingle (i : Reg) : s.restoreStatus.readSingle i = s.readSingle i := rfl
@[simp] theorem State.restoreStatus_readDouble (i : Reg) : s.restoreStatus.readDouble i = s.readDouble i := rfl
@[simp] theorem State.restoreStatus_readFlag (z : CopNum) : s.restoreStatus.readFlag z = s.readFlag z := rfl
@[simp] theorem State.restoreStatus_byteAt (a : Word) : s.restoreStatus.byteAt a = s.byteAt a := rfl
@[simp] theorem State.restoreStatus_halfAt (a : Word) : s.restoreStatus.halfAt a = s.halfAt a := rfl
@[simp] theorem State.restoreStatus_wordAt (a : Word) : s.restoreStatus.wordAt a = s.wordAt a := rfl
@[simp] theorem State.restoreStatus_classAt (a : Word) : s.restoreStatus.classAt a = s.classAt a := rfl
@[simp] theorem State.restoreStatus_nextPc : s.restoreStatus.nextPc = s.nextPc := rfl

@[simp] theorem State.writeByte_regs (x : Word) (b : Byte) : (s.writeByte x b).regs = s.regs := rfl
@[simp] theorem State.writeByte_pc (x : Word) (b : Byte) : (s.writeByte x b).pc = s.pc := rfl
@[simp] theorem State.writeByte_hi (x : Word) (b : Byte) : (s.writeByte x b).hi = s.hi := rfl
@[simp] theorem State.writeByte_lo (x : Word) (b : Byte) : (s.writeByte x b).lo = s.lo := rfl
@[simp] theorem State.writeByte_cop (x : Word) (b : Byte) : (s.writeByte x b).cop = s.cop := rfl
@[simp] theorem State.writeByte_cc (x : Word) (b : Byte) : (s.writeByte x b).cc = s.cc := rfl
@[simp] theorem State.writeByte_status (x : Word) (b : Byte) : (s.writeByte x b).status = s.status := rfl
@[simp] theorem State.writeByte_mem (x : Word) (b : Byte) : (s.writeByte x b).mem = memoryPut s.mem x.toNat b := rfl
@[simp] theorem State.writeByte_out (x : Word) (b : Byte) : (s.writeByte x b).out = s.out := rfl
@[simp] theorem State.writeByte_inWords (x : Word) (b : Byte) : (s.writeByte x b).inWords = s.inWords := rfl
@[simp] theorem State.writeByte_inDoubles (x : Word) (b : Byte) : (s.writeByte x b).inDoubles = s.inDoubles := rfl
@[simp] theorem State.writeByte_inLines (x : Word) (b : Byte) : (s.writeByte x b).inLines = s.inLines := rfl
@[simp] theorem State.writeByte_draws (x : Word) (b : Byte) : (s.writeByte x b).draws = s.draws := rfl
@[simp] theorem State.writeByte_ended (x : Word) (b : Byte) : (s.writeByte x b).ended = s.ended := rfl
@[simp] theorem State.writeByte_cfg (x : Word) (b : Byte) : (s.writeByte x b).cfg = s.cfg := rfl
@[simp] theorem State.writeByte_readReg (x : Word) (b : Byte) (r : Reg) : (s.writeByte x b).readReg r = s.readReg r := rfl
@[simp] theorem State.writeByte_readCop (x : Word) (b : Byte) (z : CopNum) (i : Reg) : (s.writeByte x b).readCop z i = s.readCop z i := rfl
@[simp] theorem State.writeByte_readSingle (x : Word) (b : Byte) (i : Reg) : (s.writeByte x b).readSingle i = s.readSingle i := rfl
@[simp] theorem State.writeByte_readDouble (x : Word) (b : Byte) (i : Reg) : (s.writeByte x b).readDouble i = s.readDouble i := rfl
@[simp] theorem State.writeByte_readFlag (x : Word) (b : Byte) (z : CopNum) : (s.writeByte x b).readFlag z = s.readFlag z := rfl
@[simp] theorem State.writeByte_classAt (x : Word) (b : Byte) (a : Word) : (s.writeByte x b).classAt a = s.classAt a := rfl
@[simp] theorem State.writeByte_nextPc (x : Word) (b : Byte) : (s.writeByte x b).nextPc = s.nextPc := rfl

@[simp] theorem State.emit_regs (e : OutputEvent) : (s.emit e).regs = s.regs := rfl
@[simp] theorem State.emit_pc (e : OutputEvent) : (s.emit e).pc = s.pc := rfl
@[simp] theorem State.emit_hi (e : OutputEvent) : (s.emit e).hi = s.hi := rfl
@[simp] theorem State.emit_lo (e : OutputEvent) : (s.emit e).lo = s.lo := rfl
@[simp] theorem State.emit_cop (e : OutputEvent) : (s.emit e).cop = s.cop := rfl
@[simp] theorem State.emit_cc (e : OutputEvent) : (s.emit e).cc = s.cc := rfl
@[simp] theorem State.emit_status (e : OutputEvent) : (s.emit e).status = s.status := rfl
@[simp] theorem State.emit_mem (e : OutputEvent) : (s.emit e).mem = s.mem := rfl
@[simp] theorem State.emit_out (e : OutputEvent) : (s.emit e).out = s.out ++ [e] := rfl
@[simp] theorem State.emit_inWords (e : OutputEvent) : (s.emit e).inWords = s.inWords := rfl
@[simp] theorem State.emit_inDoubles (e : OutputEvent) : (s.emit e).inDoubles = s.inDoubles := rfl
@[simp] theorem State.emit_inLines (e : OutputEvent) : (s.emit e).inLines = s.inLines := rfl
@[simp] theorem State.emit_draws (e : OutputEvent) : (s.emit e).draws = s.draws := rfl
@[simp] theorem State.emit_ended (e : OutputEvent) : (s.emit e).ended = s.ended := rfl
@[simp] theorem State.emit_cfg (e : OutputEvent) : (s.emit e).cfg = s.cfg := rfl
@[simp] theorem State.emit_readReg (e : OutputEvent) (r : Reg) : (s.emit e).readReg r = s.readReg r := rfl
@[simp] theorem State.emit_readCop (e : OutputEvent) (z : CopNum) (i : Reg) : (s.emit e).readCop z i = s.readCop z i := rfl
@[simp] theorem State.emit_readSingle (e : OutputEvent) (i : Reg) : (s.emit e).readSingle i = s.readSingle i := rfl
@[simp] theorem State.emit_readDouble (e : OutputEvent) (i : Reg) : (s.emit e).readDouble i = s.readDouble i := rfl
@[simp] theorem State.emit_readFlag (e : OutputEvent) (z : CopNum) : (s.emit e).readFlag z = s.readFlag z := rfl
@[simp] theorem State.emit_byteAt (e : OutputEvent) (a : Word) : (s.emit e).byteAt a = s.byteAt a := rfl
@[simp] theorem State.emit_halfAt (e : OutputEvent) (a : Word) : (s.emit e).halfAt a = s.halfAt a := rfl
@[simp] theorem State.emit_wordAt (e : OutputEvent) (a : Word) : (s.emit e).wordAt a = s.wordAt a := rfl
@[simp] theorem State.emit_classAt (e : OutputEvent) (a : Word) : (s.emit e).classAt a = s.classAt a := rfl
@[simp] theorem State.emit_nextPc (e : OutputEvent) : (s.emit e).nextPc = s.nextPc := rfl

@[simp] theorem State.link_pc (q : Reg) : (s.link q).pc = s.pc := rfl
@[simp] theorem State.link_hi (q : Reg) : (s.link q).hi = s.hi := rfl
@[simp] theorem State.link_lo (q : Reg) : (s.link q).lo = s.lo := rfl
@[simp] theorem State.link_cop (q : Reg) : (s.link q).cop = s.cop := rfl
@[simp] theorem State.link_cc (q : Reg) : (s.link q).cc = s.cc := rfl
@[simp] theorem State.link_status (q : Reg) : (s.link q).status = s.status := rfl
@[simp] theorem State.link_mem (q : Reg) : (s.link q).mem = s.mem := rfl
@[simp] theorem State.link_out (q : Reg) : (s.link q).out = s.out := rfl
@[simp] theorem State.link_inWords (q : Reg) : (s.link q).inWords = s.inWords := rfl
@[simp] theorem State.link_inDoubles (q : Reg) : (s.link q).inDoubles = s.inDoubles := rfl
@[simp] theorem State.link_inLines (q : Reg) : (s.link q).inLines = s.inLines := rfl
@[simp] theorem State.link_draws (q : Reg) : (s.link q).draws = s.draws := rfl
@[simp] theorem State.link_ended (q : Reg) : (s.link q).ended = s.ended := rfl
@[simp] theorem State.link_cfg (q : Reg) : (s.link q).cfg = s.cfg := rfl
@[simp] theorem State.link_readCop (q : Reg) (z : CopNum) (i : Reg) : (s.link q).readCop z i = s.readCop z i := rfl
@[simp] theorem State.link_readSingle (q : Reg) (i : Reg) : (s.link q).readSingle i = s.readSingle i := rfl
@[simp] theorem State.link_readDouble (q : Reg) (i : Reg) : (s.link q).readDouble i = s.readDouble i := rfl
@[simp] theorem State.link_readFlag (q : Reg) (z : CopNum) : (s.link q).readFlag z = s.readFlag z := rfl
@[simp] theorem State.link_byteAt (q : Reg) (a : Word) : (s.link q).byteAt a = s.byteAt a := rfl
@[simp] theorem State.link_halfAt (q : Reg) (a : Word) : (s.link q).halfAt a = s.halfAt a := rfl
@[simp] theorem State.link_wordAt (q : Reg) (a : Word) : (s.link q).wordAt a = s.wordAt a := rfl
@[simp] theorem State.link_classAt (q : Reg) (a : Word) : (s.link q).classAt a = s.classAt a := rfl
@[simp] theorem State.link_nextPc (q : Reg) : (s.link q).nextPc = s.nextPc := rfl

/-! Writes of several bytes, and the console, by cases. -/

@[simp] theorem State.writeBytes_regs (cells : List (Word × Byte)) : (s.writeBytes cells).regs = s.regs := by
  induction cells generalizing s with
  | nil => rfl
  | cons c rest ih => exact ih _
@[simp] theorem State.writeBytes_pc (cells : List (Word × Byte)) : (s.writeBytes cells).pc = s.pc := by
  induction cells generalizing s with
  | nil => rfl
  | cons c rest ih => exact ih _
@[simp] theorem State.writeBytes_hi (cells : List (Word × Byte)) : (s.writeBytes cells).hi = s.hi := by
  induction cells generalizing s with
  | nil => rfl
  | cons c rest ih => exact ih _
@[simp] theorem State.writeBytes_lo (cells : List (Word × Byte)) : (s.writeBytes cells).lo = s.lo := by
  induction cells generalizing s with
  | nil => rfl
  | cons c rest ih => exact ih _
@[simp] theorem State.writeBytes_cop (cells : List (Word × Byte)) : (s.writeBytes cells).cop = s.cop := by
  induction cells generalizing s with
  | nil => rfl
  | cons c rest ih => exact ih _
@[simp] theorem State.writeBytes_cc (cells : List (Word × Byte)) : (s.writeBytes cells).cc = s.cc := by
  induction cells generalizing s with
  | nil => rfl
  | cons c rest ih => exact ih _
@[simp] theorem State.writeBytes_status (cells : List (Word × Byte)) : (s.writeBytes cells).status = s.status := by
  induction cells generalizing s with
  | nil => rfl
  | cons c rest ih => exact ih _
@[simp] theorem State.writeBytes_out (cells : List (Word × Byte)) : (s.writeBytes cells).out = s.out := by
  induction cells generalizing s with
  | nil => rfl
  | cons c rest ih => exact ih _
@[simp] theorem State.writeBytes_inWords (cells : List (Word × Byte)) : (s.writeBytes cells).inWords = s.inWords := by
  induction cells generalizing s with
  | nil => rfl
  | cons c rest ih => exact ih _
@[simp] theorem State.writeBytes_inDoubles (cells : List (Word × Byte)) : (s.writeBytes cells).inDoubles = s.inDoubles := by
  induction cells generalizing s with
  | nil => rfl
  | cons c rest ih => exact ih _
@[simp] theorem State.writeBytes_inLines (cells : List (Word × Byte)) : (s.writeBytes cells).inLines = s.inLines := by
  induction cells generalizing s with
  | nil => rfl
  | cons c rest ih => exact ih _
@[simp] theorem State.writeBytes_draws (cells : List (Word × Byte)) : (s.writeBytes cells).draws = s.draws := by
  induction cells generalizing s with
  | nil => rfl
  | cons c rest ih => exact ih _
@[simp] theorem State.writeBytes_ended (cells : List (Word × Byte)) : (s.writeBytes cells).ended = s.ended := by
  induction cells generalizing s with
  | nil => rfl
  | cons c rest ih => exact ih _
@[simp] theorem State.writeBytes_cfg (cells : List (Word × Byte)) : (s.writeBytes cells).cfg = s.cfg := by
  induction cells generalizing s with
  | nil => rfl
  | cons c rest ih => exact ih _
@[simp] theorem State.writeBytes_readReg (cells : List (Word × Byte)) (r : Reg) : (s.writeBytes cells).readReg r = s.readReg r := by
  induction cells generalizing s with
  | nil => rfl
  | cons c rest ih => exact ih _
@[simp] theorem State.writeBytes_readCop (cells : List (Word × Byte)) (z : CopNum) (i : Reg) : (s.writeBytes cells).readCop z i = s.readCop z i := by
  induction cells generalizing s with
  | nil => rfl
  | cons c rest ih => exact ih _
@[simp] theorem State.writeBytes_readSingle (cells : List (Word × Byte)) (i : Reg) : (s.writeBytes cells).readSingle i = s.readSingle i := by
  induction cells generalizing s with
  | nil => rfl
  | cons c rest ih => exact ih _
@[simp] theorem State.writeBytes_readDouble (cells : List (Word × Byte)) (i : Reg) : (s.writeBytes cells).readDouble i = s.readDouble i := by
  induction cells generalizing s with
  | nil => rfl
  | cons c rest ih => exact ih _
@[simp] theorem State.writeBytes_readFlag (cells : List (Word × Byte)) (z : CopNum) : (s.writeBytes cells).readFlag z = s.readFlag z := by
  induction cells generalizing s with
  | nil => rfl
  | cons c rest ih => exact ih _
@[simp] theorem State.writeBytes_classAt (cells : List (Word × Byte)) (a : Word) : (s.writeBytes cells).classAt a = s.classAt a := by
  induction cells generalizing s with
  | nil => rfl
  | cons c rest ih => exact ih _
@[simp] theorem State.writeBytes_nextPc (cells : List (Word × Byte)) : (s.writeBytes cells).nextPc = s.nextPc := by
  induction cells generalizing s with
  | nil => rfl
  | cons c rest ih => exact ih _
@[simp] theorem State.afterWord_regs : s.afterWord.regs = s.regs := by unfold State.afterWord; split <;> rfl
@[simp] theorem State.afterWord_pc : s.afterWord.pc = s.pc := by unfold State.afterWord; split <;> rfl
@[simp] theorem State.afterWord_hi : s.afterWord.hi = s.hi := by unfold State.afterWord; split <;> rfl
@[simp] theorem State.afterWord_lo : s.afterWord.lo = s.lo := by unfold State.afterWord; split <;> rfl
@[simp] theorem State.afterWord_cop : s.afterWord.cop = s.cop := by unfold State.afterWord; split <;> rfl
@[simp] theorem State.afterWord_cc : s.afterWord.cc = s.cc := by unfold State.afterWord; split <;> rfl
@[simp] theorem State.afterWord_status : s.afterWord.status = s.status := by unfold State.afterWord; split <;> rfl
@[simp] theorem State.afterWord_mem : s.afterWord.mem = s.mem := by unfold State.afterWord; split <;> rfl
@[simp] theorem State.afterWord_out : s.afterWord.out = s.out := by unfold State.afterWord; split <;> rfl
@[simp] theorem State.afterWord_inDoubles : s.afterWord.inDoubles = s.inDoubles := by unfold State.afterWord; split <;> rfl
@[simp] theorem State.afterWord_inLines : s.afterWord.inLines = s.inLines := by unfold State.afterWord; split <;> rfl
@[simp] theorem State.afterWord_ended : s.afterWord.ended = s.ended := by unfold State.afterWord; split <;> rfl
@[simp] theorem State.afterWord_cfg : s.afterWord.cfg = s.cfg := by unfold State.afterWord; split <;> rfl
@[simp] theorem State.afterWord_readReg (r : Reg) : s.afterWord.readReg r = s.readReg r := by unfold State.afterWord; split <;> rfl
@[simp] theorem State.afterWord_readCop (z : CopNum) (i : Reg) : s.afterWord.readCop z i = s.readCop z i := by unfold State.afterWord; split <;> rfl
@[simp] theorem State.afterWord_readSingle (i : Reg) : s.afterWord.readSingle i = s.readSingle i := by unfold State.afterWord; split <;> rfl
@[simp] theorem State.afterWord_readDouble (i : Reg) : s.afterWord.readDouble i = s.readDouble i := by unfold State.afterWord; split <;> rfl
@[simp] theorem State.afterWord_readFlag (z : CopNum) : s.afterWord.readFlag z = s.readFlag z := by unfold State.afterWord; split <;> rfl
@[simp] theorem State.afterWord_byteAt (a : Word) : s.afterWord.byteAt a = s.byteAt a := by unfold State.afterWord; split <;> rfl
@[simp] theorem State.afterWord_halfAt (a : Word) : s.afterWord.halfAt a = s.halfAt a := by unfold State.afterWord; split <;> rfl
@[simp] theorem State.afterWord_wordAt (a : Word) : s.afterWord.wordAt a = s.wordAt a := by unfold State.afterWord; split <;> rfl
@[simp] theorem State.afterWord_classAt (a : Word) : s.afterWord.classAt a = s.classAt a := by unfold State.afterWord; split <;> rfl
@[simp] theorem State.afterWord_nextPc : s.afterWord.nextPc = s.nextPc := by unfold State.afterWord; split <;> rfl
@[simp] theorem State.afterDouble_regs : s.afterDouble.regs = s.regs := by unfold State.afterDouble; split <;> rfl
@[simp] theorem State.afterDouble_pc : s.afterDouble.pc = s.pc := by unfold State.afterDouble; split <;> rfl
@[simp] theorem State.afterDouble_hi : s.afterDouble.hi = s.hi := by unfold State.afterDouble; split <;> rfl
@[simp] theorem State.afterDouble_lo : s.afterDouble.lo = s.lo := by unfold State.afterDouble; split <;> rfl
@[simp] theorem State.afterDouble_cop : s.afterDouble.cop = s.cop := by unfold State.afterDouble; split <;> rfl
@[simp] theorem State.afterDouble_cc : s.afterDouble.cc = s.cc := by unfold State.afterDouble; split <;> rfl
@[simp] theorem State.afterDouble_status : s.afterDouble.status = s.status := by unfold State.afterDouble; split <;> rfl
@[simp] theorem State.afterDouble_mem : s.afterDouble.mem = s.mem := by unfold State.afterDouble; split <;> rfl
@[simp] theorem State.afterDouble_out : s.afterDouble.out = s.out := by unfold State.afterDouble; split <;> rfl
@[simp] theorem State.afterDouble_inWords : s.afterDouble.inWords = s.inWords := by unfold State.afterDouble; split <;> rfl
@[simp] theorem State.afterDouble_inLines : s.afterDouble.inLines = s.inLines := by unfold State.afterDouble; split <;> rfl
@[simp] theorem State.afterDouble_ended : s.afterDouble.ended = s.ended := by unfold State.afterDouble; split <;> rfl
@[simp] theorem State.afterDouble_cfg : s.afterDouble.cfg = s.cfg := by unfold State.afterDouble; split <;> rfl
@[simp] theorem State.afterDouble_readReg (r : Reg) : s.afterDouble.readReg r = s.readReg r := by unfold State.afterDouble; split <;> rfl
@[simp] theorem State.afterDouble_readCop (z : CopNum) (i : Reg) : s.afterDouble.readCop z i = s.readCop z i := by unfold State.afterDouble; split <;> rfl
@[simp] theorem State.afterDouble_readSingle (i : Reg) : s.afterDouble.readSingle i = s.readSingle i := by unfold State.afterDouble; split <;> rfl
@[simp] theorem State.afterDouble_readDouble (i : Reg) : s.afterDouble.readDouble i = s.readDouble i := by unfold State.afterDouble; split <;> rfl
@[simp] theorem State.afterDouble_readFlag (z : CopNum) : s.afterDouble.readFlag z = s.readFlag z := by unfold State.afterDouble; split <;> rfl
@[simp] theorem State.afterDouble_byteAt (a : Word) : s.afterDouble.byteAt a = s.byteAt a := by unfold State.afterDouble; split <;> rfl
@[simp] theorem State.afterDouble_halfAt (a : Word) : s.afterDouble.halfAt a = s.halfAt a := by unfold State.afterDouble; split <;> rfl
@[simp] theorem State.afterDouble_wordAt (a : Word) : s.afterDouble.wordAt a = s.wordAt a := by unfold State.afterDouble; split <;> rfl
@[simp] theorem State.afterDouble_classAt (a : Word) : s.afterDouble.classAt a = s.classAt a := by unfold State.afterDouble; split <;> rfl
@[simp] theorem State.afterDouble_nextPc : s.afterDouble.nextPc = s.nextPc := by unfold State.afterDouble; split <;> rfl
@[simp] theorem State.afterLine_regs : s.afterLine.regs = s.regs := by unfold State.afterLine; split <;> rfl
@[simp] theorem State.afterLine_pc : s.afterLine.pc = s.pc := by unfold State.afterLine; split <;> rfl
@[simp] theorem State.afterLine_hi : s.afterLine.hi = s.hi := by unfold State.afterLine; split <;> rfl
@[simp] theorem State.afterLine_lo : s.afterLine.lo = s.lo := by unfold State.afterLine; split <;> rfl
@[simp] theorem State.afterLine_cop : s.afterLine.cop = s.cop := by unfold State.afterLine; split <;> rfl
@[simp] theorem State.afterLine_cc : s.afterLine.cc = s.cc := by unfold State.afterLine; split <;> rfl
@[simp] theorem State.afterLine_status : s.afterLine.status = s.status := by unfold State.afterLine; split <;> rfl
@[simp] theorem State.afterLine_mem : s.afterLine.mem = s.mem := by unfold State.afterLine; split <;> rfl
@[simp] theorem State.afterLine_out : s.afterLine.out = s.out := by unfold State.afterLine; split <;> rfl
@[simp] theorem State.afterLine_inWords : s.afterLine.inWords = s.inWords := by unfold State.afterLine; split <;> rfl
@[simp] theorem State.afterLine_inDoubles : s.afterLine.inDoubles = s.inDoubles := by unfold State.afterLine; split <;> rfl
@[simp] theorem State.afterLine_ended : s.afterLine.ended = s.ended := by unfold State.afterLine; split <;> rfl
@[simp] theorem State.afterLine_cfg : s.afterLine.cfg = s.cfg := by unfold State.afterLine; split <;> rfl
@[simp] theorem State.afterLine_readReg (r : Reg) : s.afterLine.readReg r = s.readReg r := by unfold State.afterLine; split <;> rfl
@[simp] theorem State.afterLine_readCop (z : CopNum) (i : Reg) : s.afterLine.readCop z i = s.readCop z i := by unfold State.afterLine; split <;> rfl
@[simp] theorem State.afterLine_readSingle (i : Reg) : s.afterLine.readSingle i = s.readSingle i := by unfold State.afterLine; split <;> rfl
@[simp] theorem State.afterLine_readDouble (i : Reg) : s.afterLine.readDouble i = s.readDouble i := by unfold State.afterLine; split <;> rfl
@[simp] theorem State.afterLine_readFlag (z : CopNum) : s.afterLine.readFlag z = s.readFlag z := by unfold State.afterLine; split <;> rfl
@[simp] theorem State.afterLine_byteAt (a : Word) : s.afterLine.byteAt a = s.byteAt a := by unfold State.afterLine; split <;> rfl
@[simp] theorem State.afterLine_halfAt (a : Word) : s.afterLine.halfAt a = s.halfAt a := by unfold State.afterLine; split <;> rfl
@[simp] theorem State.afterLine_wordAt (a : Word) : s.afterLine.wordAt a = s.wordAt a := by unfold State.afterLine; split <;> rfl
@[simp] theorem State.afterLine_classAt (a : Word) : s.afterLine.classAt a = s.classAt a := by unfold State.afterLine; split <;> rfl
@[simp] theorem State.afterLine_nextPc : s.afterLine.nextPc = s.nextPc := by unfold State.afterLine; split <;> rfl

end Sys2Proof.Machine
end

