-- ==== Sys2Proof/Laws/Registers.lean ====
section
/-! SUPPORT. Reading a register or a flag after a write (10_state.md R21, R27 to R30). -/

namespace Sys2Proof.Machine

variable (s : State)

@[simp] theorem readReg_zero : s.readReg 0#5 = 0#32 := by simp [State.readReg]

@[simp] theorem writeReg_zero (v : Word) : s.writeReg 0#5 v = s := by simp [State.writeReg]

theorem readReg_of_ne {r : Reg} (h : r ≠ 0#5) : s.readReg r = s.regs[r.toNat]'r.isLt := by simp [State.readReg, h]

theorem readReg_writeReg (q r : Reg) (v : Word) :
    (s.writeReg q v).readReg r = if r = 0#5 then 0#32 else if r = q then v else s.readReg r := by
  by_cases hr : r = 0#5
  · simp [hr]
  · by_cases hq : r = q
    · subst hq; simp [State.readReg, State.writeReg, hr]
    · have hn : ¬ q.toNat = r.toNat := fun h => hq (BitVec.eq_of_toNat_eq h.symm)
      by_cases hz : q = 0#5
      · simp [hz, hr] at hq ⊢
      · simp [State.readReg, State.writeReg, hr, hq, hz, hn]

theorem readReg_writeReg_same {r : Reg} (h : r ≠ 0#5) (v : Word) : (s.writeReg r v).readReg r = v := by
  simp [readReg_writeReg, h]

theorem readReg_writeReg_other {q r : Reg} (h : r ≠ q) (v : Word) : (s.writeReg q v).readReg r = s.readReg r := by
  rw [readReg_writeReg]; split <;> simp_all

theorem readCop_writeCop (y z : CopNum) (j i : Reg) (v : Word) :
    (s.writeCop y j v).readCop z i = if z = y ∧ i = j then v else s.readCop z i := by
  by_cases hz : z = y
  · subst hz
    by_cases hi : i = j
    · subst hi; simp [State.readCop, State.writeCop]
    · have hn : ¬ j.toNat = i.toNat := fun h => hi (BitVec.eq_of_toNat_eq h.symm)
      simp [State.readCop, State.writeCop, hi, hn]
  · have hn : ¬ y.toNat = z.toNat := fun h => hz (BitVec.eq_of_toNat_eq h.symm)
    simp [State.readCop, State.writeCop, hz, hn]

theorem readSingle_writeSingle (j i : Reg) (v : Word) :
    (s.writeSingle j v).readSingle i = if i = j then v else s.readSingle i := by
  simp [State.readSingle, State.writeSingle, readCop_writeCop]

theorem readCop_writeSingle (z : CopNum) (j i : Reg) (v : Word) :
    (s.writeSingle j v).readCop z i = if z = 1#2 ∧ i = j then v else s.readCop z i := by
  simp [State.writeSingle, readCop_writeCop]

theorem add_one_ne (i : Reg) : i + 1#5 ≠ i := by
  intro h
  have := congrArg BitVec.toNat h
  have hi := i.isLt
  simp [BitVec.toNat_add] at this
  omega

theorem readCop_writeDouble (z : CopNum) (j i : Reg) (v : DWord) :
    (s.writeDouble j v).readCop z i =
      if z = 1#2 ∧ i = j + 1#5 then v.extractLsb' 32 32
      else if z = 1#2 ∧ i = j then v.extractLsb' 0 32 else s.readCop z i := by
  simp [State.writeDouble, readCop_writeSingle]

theorem readDouble_writeDouble (j : Reg) (v : DWord) : (s.writeDouble j v).readDouble j = v := by
  have h1 := add_one_ne j
  simp only [State.readDouble, State.readSingle, readCop_writeDouble, h1.symm, and_self, if_true, and_false, if_false]
  apply BitVec.eq_of_getLsbD_eq
  intro k hk
  simp only [BitVec.getLsbD_cast, BitVec.getLsbD_append, BitVec.getLsbD_extractLsb']
  by_cases h : k < 32
  · simp [h]
  · have : k - 32 < 32 := by omega
    have e : 32 + (k - 32) = k := by omega
    simp [h, this, e]

theorem readFlag_writeFlag (y z : CopNum) (b : Bool) :
    (s.writeFlag y b).readFlag z = if z = y then b else s.readFlag z := by
  by_cases hz : z = y
  · subst hz; simp [State.readFlag, State.writeFlag]
  · have hn : ¬ y.toNat = z.toNat := fun h => hz (BitVec.eq_of_toNat_eq h.symm)
    simp [State.readFlag, State.writeFlag, hz, hn]

/-- Every write of a general register keeps the cell of register 0 (R21). -/
theorem writeReg_regs_zero (q : Reg) (v : Word) : (s.writeReg q v).regs[0] = s.regs[0] := by
  by_cases hq : q = 0#5
  · simp [hq]
  · have hn : ¬ q.toNat = 0 := fun h => hq (BitVec.eq_of_toNat_eq (by simpa using h))
    simp [hq, hn]

end Sys2Proof.Machine
end

