-- ==== Sys2Proof/Laws/Memory.lean ====
section
/-! SUPPORT. Memory: reading after a write, the one form of a memory, and the bytes of a word (20_memory.md R50 to R54,
R69). -/

namespace Sys2Proof.Machine

theorem memoryGet_memoryPut (m : Memory) (x a : Nat) (b : Byte) :
    memoryRises 0 m = true →
    memoryGet (memoryPut m x b) a = if a = x then some b else memoryGet m a := by
  have main : ∀ low, memoryRises low m = true →
      memoryGet (memoryPut m x b) a = if a = x then some b else memoryGet m a := by
    induction m with
    | nil => intro low _; by_cases h : x = a <;> simp [memoryPut, memoryGet, h, eq_comm]
    | cons c rest ih =>
      obtain ⟨k, d⟩ := c
      intro low h
      simp only [memoryRises, Bool.and_eq_true, decide_eq_true_eq] at h
      have ih' := ih _ h.2
      unfold memoryPut
      split
      · by_cases hx : x = a <;> simp [memoryGet, hx, eq_comm]
      · split
        · rename_i hk; subst hk; by_cases hx : x = a <;> simp [memoryGet, hx, eq_comm]
        · simp only [memoryGet]
          by_cases hka : k = a
          · subst hka; simp [eq_comm]; intro h'; omega
          · simp [hka, ih']
  exact main 0

theorem memoryRises_memoryPut (m : Memory) (low x : Nat) (b : Byte) (hm : memoryRises low m = true) (hl : low ≤ x)
    (hx : x < 2 ^ 32) : memoryRises low (memoryPut m x b) = true := by
  induction m generalizing low with
  | nil => simp [memoryPut, memoryRises, hl]; omega
  | cons c rest ih =>
    obtain ⟨k, d⟩ := c
    simp only [memoryRises, Bool.and_eq_true, decide_eq_true_eq] at hm
    unfold memoryPut
    split
    · simp only [memoryRises, Bool.and_eq_true, decide_eq_true_eq]; exact ⟨⟨hl, hx⟩, ⟨by omega, hm.1.2⟩, hm.2⟩
    · split
      · rename_i hk; subst hk; simp only [memoryRises, Bool.and_eq_true, decide_eq_true_eq]; exact ⟨⟨hl, hx⟩, hm.2⟩
      · simp only [memoryRises, Bool.and_eq_true, decide_eq_true_eq]; exact ⟨hm.1, ih _ hm.2 (by omega)⟩

/-- A write of a byte keeps the one form of a memory. -/
theorem writeByte_wf (s : State) (a : Word) (b : Byte) (h : Memory.wf s.mem = true) :
    Memory.wf (s.writeByte a b).mem = true :=
  memoryRises_memoryPut _ _ _ _ h (Nat.zero_le _) a.isLt

/-- Writes of bytes keep the one form of a memory. -/
theorem writeBytes_wf (s : State) (cells : List (Word × Byte)) (h : Memory.wf s.mem = true) :
    Memory.wf (s.writeBytes cells).mem = true := by
  induction cells generalizing s with
  | nil => exact h
  | cons c rest ih => exact ih _ (writeByte_wf s c.1 c.2 h)

/-- The memory after reset has the one form. -/
theorem reset_memory_wf : Memory.wf State.reset.mem = true := rfl

/-- Read after write, of one byte (20_memory.md R62). -/
theorem byteAt_writeByte (s : State) (x a : Word) (b : Byte) (h : Memory.wf s.mem = true) :
    (s.writeByte x b).byteAt a = if a = x then b else s.byteAt a := by
  simp only [State.byteAt, State.writeByte_mem, memoryGet_memoryPut _ _ _ _ h]
  by_cases hx : a = x
  · simp [hx]
  · have hn : ¬ a.toNat = x.toNat := fun e => hx (BitVec.eq_of_toNat_eq e)
    simp [hx, hn]

/-- An update that leaves the listed memory leaves every byte. -/
theorem byteAt_congr {s t : State} (h : t.mem = s.mem) (a : Word) : t.byteAt a = s.byteAt a := by
  simp [State.byteAt, h]

/-- The byte at `a` after writes of bytes: that of the last write at `a`, or the old one. -/
theorem byteAt_writeBytes_cons (s : State) (x : Word) (b : Byte) (rest : List (Word × Byte)) :
    s.writeBytes ((x, b) :: rest) = (s.writeByte x b).writeBytes rest := rfl

/-- Writes of bytes leave the bytes at other addresses (R54). -/
theorem byteAt_writeBytes_other (s : State) (cells : List (Word × Byte)) (a : Word) (h : Memory.wf s.mem = true)
    (ha : a ∉ cells.map Prod.fst) : (s.writeBytes cells).byteAt a = s.byteAt a := by
  induction cells generalizing s with
  | nil => rfl
  | cons c rest ih =>
    obtain ⟨x, b⟩ := c
    simp only [List.map_cons, List.mem_cons, not_or] at ha
    rw [byteAt_writeBytes_cons, ih _ (writeByte_wf s x b h) ha.2, byteAt_writeByte s x a b h, if_neg ha.1]

/-- Writes of bytes at different addresses: each is what its address then reads as (R54). -/
theorem byteAt_writeBytes_mem (s : State) (cells : List (Word × Byte)) (a : Word) (b : Byte)
    (h : Memory.wf s.mem = true) (hd : (cells.map Prod.fst).Nodup) (hm : (a, b) ∈ cells) :
    (s.writeBytes cells).byteAt a = b := by
  induction cells generalizing s with
  | nil => simp at hm
  | cons c rest ih =>
    obtain ⟨x, d⟩ := c
    simp only [List.map_cons, List.nodup_cons] at hd
    rw [byteAt_writeBytes_cons]
    rcases List.mem_cons.1 hm with hm | hm
    · cases hm
      rw [byteAt_writeBytes_other _ _ _ (writeByte_wf s a b h) hd.1, byteAt_writeByte s a a b h, if_pos rfl]
    · exact ih _ (writeByte_wf s x d h) hd.2 hm

@[simp] theorem bytesFrom_zero (a : Word) : bytesFrom a 0 = [] := rfl

@[simp] theorem bytesFrom_succ (a : Word) (n : Nat) : bytesFrom a (n + 1) = a :: bytesFrom (a + 1#32) n := rfl

@[simp] theorem length_bytesFrom (a : Word) (n : Nat) : (bytesFrom a n).length = n := by
  induction n generalizing a with
  | zero => rfl
  | succ n ih => simp [ih]

theorem wordCells_addresses (e : Endian) (a v : Word) : (wordCells e a v).map Prod.fst = bytesFrom a 4 := by
  cases e <;> rfl

theorem halfCells_addresses (e : Endian) (a : Word) (v : Half) : (halfCells e a v).map Prod.fst = bytesFrom a 2 := by
  cases e <;> rfl

theorem storeKind_cells_addresses (kind : StoreKind) (e : Endian) (a v : Word) :
    (StoreKind.cells kind e a v).map Prod.fst = bytesFrom a (StoreKind.size kind) := by
  cases kind
  · rfl
  · exact halfCells_addresses e a _
  · exact wordCells_addresses e a v

theorem partialCells_addresses (side : Side) (e : Endian) (a v : Word) :
    (partialCells side e a v).map Prod.fst = (partialPairs side e a).map Prod.fst := by
  simp [partialCells, List.map_map, Function.comp_def]

/-- The word made of the bytes of a word is that word (R53, R54). -/
theorem wordOfBytes_bytesOfWord (e : Endian) (v : Word) :
    (match bytesOfWord e v with
     | [b0, b1, b2, b3] => wordOfBytes e b0 b1 b2 b3
     | _ => 0) = v := by
  have h : (byteOfWord v 3 ++ byteOfWord v 2 ++ byteOfWord v 1 ++ byteOfWord v 0).cast rfl = v := by
    apply BitVec.eq_of_getLsbD_eq
    intro i hi
    simp only [byteOfWord, BitVec.getLsbD_cast, BitVec.getLsbD_append, BitVec.getLsbD_extractLsb']
    interval_cases i <;> simp
  cases e <;> exact h

/-- The four addresses of a word differ. -/
theorem word_addresses_differ (a : Word) : (bytesFrom a 4).Nodup := by
  have h1 : a ≠ a + 1#32 := by bv_omega
  have h2 : a ≠ a + 1#32 + 1#32 := by bv_omega
  have h3 : a ≠ a + 1#32 + 1#32 + 1 := by bv_omega
  have h4 : a + 1#32 ≠ a + 1#32 + 1#32 := by bv_omega
  have h5 : a + 1#32 ≠ a + 1#32 + 1#32 + 1 := by bv_omega
  have h6 : a + 1#32 + 1#32 ≠ a + 1#32 + 1#32 + 1 := by bv_omega
  simp only [bytesFrom, List.nodup_cons, List.mem_cons, List.not_mem_nil, List.nodup_nil, or_false, not_or,
    not_false_eq_true, and_true]
  exact ⟨⟨h1, h2, h3⟩, ⟨h4, h5⟩, h6⟩

/-- A word stored is read back (R62). -/
theorem wordAt_writeWord (s : State) (a v : Word) (h : Memory.wf s.mem = true) :
    (s.writeBytes (wordCells s.cfg.endian a v)).wordAt a = v := by
  have hd : ((wordCells s.cfg.endian a v).map Prod.fst).Nodup := by
    rw [wordCells_addresses]; exact word_addresses_differ a
  have key := fun x b => byteAt_writeBytes_mem s (wordCells s.cfg.endian a v) x b h hd
  have e2 : a + 2#32 = a + 1#32 + 1#32 := by bv_omega
  have e3 : a + 3#32 = a + 1#32 + 1#32 + 1 := by bv_omega
  have back := wordOfBytes_bytesOfWord s.cfg.endian v
  unfold State.wordAt
  rw [State.writeBytes_cfg, e2, e3]
  revert key back
  cases s.cfg.endian <;> intro key back
  · rw [key a (byteOfWord v 0) (by simp [wordCells, bytesOfWord]),
      key (a + 1#32) (byteOfWord v 1) (by simp [wordCells, bytesOfWord]),
      key (a + 1#32 + 1#32) (byteOfWord v 2) (by simp [wordCells, bytesOfWord]),
      key (a + 1#32 + 1#32 + 1) (byteOfWord v 3) (by simp [wordCells, bytesOfWord])]
    exact back
  · rw [key a (byteOfWord v 3) (by simp [wordCells, bytesOfWord]),
      key (a + 1#32) (byteOfWord v 2) (by simp [wordCells, bytesOfWord]),
      key (a + 1#32 + 1#32) (byteOfWord v 1) (by simp [wordCells, bytesOfWord]),
      key (a + 1#32 + 1#32 + 1) (byteOfWord v 0) (by simp [wordCells, bytesOfWord])]
    exact back

end Sys2Proof.Machine
end

