-- ==== Sys2Proof/Laws/Ops.lean ====
section
/-! SUPPORT. For each shared operation, once, everything it can do: what it answers when it completes, and when it
completes. -/

namespace Sys2Proof.Machine

variable {s t : State}

@[simp] theorem unlessStop_none (r : Result) : unlessStop none s r = r := rfl

@[simp] theorem unlessStop_some (c : Stop) (r : Result) : unlessStop (some c) s r = stopWith c s := rfl

@[simp] theorem raise_ne_next (e : Exception) : raise e s ≠ .next t := by simp [raise]

@[simp] theorem stopWith_ne_next (c : Stop) : stopWith c s ≠ .next t := by cases c <;> simp [stopWith, raise]

/-- A checked effect completes exactly when no check stops it. -/
theorem unlessStop_next (c : Option Stop) (r : Result) :
    unlessStop c s r = .next t ↔ c = none ∧ r = .next t := by
  cases c <;> simp

/-- `done` moves past the instruction (10_state.md R24). -/
theorem done_next : done s = .next t ↔ t = s.jump s.nextPc := by simp [done, eq_comm]

theorem firstStop_none (c d : Option Stop) : firstStop c d = none ↔ c = none ∧ d = none := by
  cases c <;> simp [firstStop]

/-- No address of a list is of a class. -/
theorem anyOf_false (c : AddrClass) (addrs : List Word) :
    s.anyOf c addrs = false ↔ ∀ a ∈ addrs, s.classAt a ≠ c := by
  simp [State.anyOf]

/-- When a read passes its checks (R53, R56, R59). -/
theorem readStop_none (align : Nat) (a : Word) (addrs : List Word) :
    readStop s align a addrs = none ↔ a.toNat % align = 0 ∧ ∀ x ∈ addrs, s.classAt x ≠ .unmapped := by
  unfold readStop
  by_cases h : a.toNat % align = 0
  · simp only [h, ne_eq, not_true_eq_false, if_false, true_and]
    rw [← anyOf_false]
    cases s.anyOf .unmapped addrs <;> simp
  · simp [h]

/-- When a write passes its checks: every byte is data (R54, R56, R59, R61). -/
theorem writeStop_none (align : Nat) (a : Word) (addrs : List Word) :
    writeStop s align a addrs = none ↔ a.toNat % align = 0 ∧ ∀ x ∈ addrs, s.classAt x = .data := by
  unfold writeStop
  have hr := readStop_none (s := s) align a addrs
  cases h : readStop s align a addrs with
  | some c =>
    simp only [reduceCtorEq, false_iff, not_and]
    intro ha hd
    rw [h] at hr
    exact absurd (hr.2 ⟨ha, fun x hx => by simp [hd x hx]⟩) (by simp)
  | none =>
    have hr' := hr.1 h
    have ht := anyOf_false (s := s) .text addrs
    cases hx : s.anyOf .text addrs with
    | true =>
      simp only [if_true, reduceCtorEq, false_iff, not_and]
      intro _ hd
      have := ht.2 (fun x hm => by simp [hd x hm])
      simp [hx] at this
    | false =>
      simp only [Bool.false_eq_true, if_false, true_iff]
      refine ⟨hr'.1, fun x hm => ?_⟩
      have h1 := hr'.2 x hm
      have h2 := ht.1 hx x hm
      cases hc : s.classAt x <;> simp_all

/-- What a misaligned read does (R56). -/
theorem readStop_misaligned (align : Nat) (a : Word) (addrs : List Word) (h : a.toNat % align ≠ 0) :
    readStop s align a addrs = some (.raises (.addressError a)) := by
  simp [readStop, h]

/-- What an aligned read of an address that is not allocated does (R59). -/
theorem readStop_unmapped (align : Nat) (a : Word) (addrs : List Word) (h : a.toNat % align = 0) {x : Word}
    (hx : x ∈ addrs) (hc : s.classAt x = .unmapped) : readStop s align a addrs = some (.raises (.busError a)) := by
  have : s.anyOf .unmapped addrs = true := by
    rw [State.anyOf, List.any_eq_true]
    exact ⟨x, hx, by simp [hc]⟩
  simp [readStop, h, this]

theorem evenStop_none (l : List Reg) : evenStop l = none ↔ ∀ r ∈ l, oddReg r = false := by
  unfold evenStop
  by_cases h : l.any oddReg = true
  · simp only [h, if_true, reduceCtorEq, false_iff]
    simp only [List.any_eq_true] at h
    obtain ⟨x, hx, ho⟩ := h
    intro hall
    simp [hall x hx] at ho
  · simp only [h]
    simpa using h

theorem evenStop_some (l : List Reg) {r : Reg} (hr : r ∈ l) (h : oddReg r = true) :
    evenStop l = some (.refuses .oddFloatRegister) := by
  have : l.any oddReg = true := List.any_eq_true.2 ⟨r, hr, h⟩
  simp [evenStop, this]

/-- A load completes exactly when its read is allowed (45_load.md). -/
theorem loadReg_next (kind : LoadKind) (align : Nat) (a : Word) (rt : Reg) (fin : State → Result) :
    loadReg kind align a rt fin s = .next t ↔
      readStop s align a (bytesFrom a (LoadKind.size kind)) = none ∧
        fin (s.writeReg rt (LoadKind.value kind s a)) = .next t :=
  unlessStop_next _ _

theorem loadCop_next (z : CopNum) (i : Reg) (a : Word) (fin : State → Result) :
    loadCop z i a fin s = .next t ↔
      readStop s 4 a (bytesFrom a 4) = none ∧ fin (s.writeCop z i (s.wordAt a)) = .next t :=
  unlessStop_next _ _

/-- A store completes exactly when its write is allowed (46_store.md). -/
theorem storeCells_next (align : Nat) (a : Word) (cells : List (Word × Byte)) (fin : State → Result) :
    storeCells align a cells fin s = .next t ↔
      writeStop s align a (cells.map Prod.fst) = none ∧ fin (s.writeBytes cells) = .next t :=
  unlessStop_next _ _

theorem loadPartial_next (side : Side) (a : Word) (rt : Reg) (fin : State → Result) :
    loadPartial side a rt fin s = .next t ↔
      readStop s 1 a ((partialPairs side s.cfg.endian a).map Prod.fst) = none ∧
        fin (s.writeReg rt (mergeBytes s (s.readReg rt) (partialPairs side s.cfg.endian a))) = .next t :=
  unlessStop_next _ _

theorem storePartial_next (side : Side) (a v : Word) (fin : State → Result) :
    storePartial side a v fin s = .next t ↔
      writeStop s 1 a ((partialPairs side s.cfg.endian a).map Prod.fst) = none ∧
        fin (s.writeBytes (partialCells side s.cfg.endian a v)) = .next t := by
  rw [storePartial, storeCells_next, partialCells_addresses]

/-- When an unaligned store passes the checks of its two accesses: every byte is data (46_store.md R289). -/
theorem unalignedWriteStop_none (count : Nat) (a : Word) (addrs : List Word) :
    unalignedWriteStop s count a addrs = none ↔ ∀ x ∈ addrs, s.classAt x = .data := by
  rw [unalignedWriteStop, firstStop_none, writeStop_none, writeStop_none]
  simp only [Nat.mod_one, true_and]
  refine ⟨fun h x hx => ?_, fun h => ⟨fun x hx => h x (List.mem_of_mem_take hx), fun x hx => h x (List.mem_of_mem_drop hx)⟩⟩
  rw [← List.take_append_drop count addrs, List.mem_append] at hx
  exact hx.elim (h.1 x) (h.2 x)

/-- An unaligned store completes exactly when every byte it writes is data (R288, R289). -/
theorem storeUnaligned_next (kind : StoreKind) (a v : Word) (fin : State → Result) :
    storeUnaligned kind a v fin s = .next t ↔
      (∀ x ∈ (StoreKind.cells kind s.cfg.endian a v).map Prod.fst, s.classAt x = .data) ∧
        fin (s.writeBytes (StoreKind.cells kind s.cfg.endian a v)) = .next t := by
  unfold storeUnaligned
  rw [unlessStop_next, unalignedWriteStop_none]

/-- The result of an operation that detects overflow (40_arithmetic_logical.md R120). -/
theorem setRegOrOverflow_next (rd : Reg) (x : Int) (fin : State → Result) :
    setRegOrOverflow rd x fin s = .next t ↔
      overflowsSigned x = false ∧ fin (s.writeReg rd (BitVec.ofInt 32 x)) = .next t := by
  unfold setRegOrOverflow setReg
  cases overflowsSigned x <;> simp

theorem setRegOrOverflow_fault (rd : Reg) (x : Int) (fin : State → Result) (h : overflowsSigned x = true) :
    setRegOrOverflow rd x fin s = raise .overflow s := by
  simp [setRegOrOverflow, h]

theorem divideSigned_next (a b : Word) (fin : State → Result) :
    divideSigned a b fin s = .next t ↔
      (b = 0#32 ∧ fin (drawHiLo s) = .next t) ∨
      (b ≠ 0#32 ∧ quotientOverflows a b = false ∧
        fin (s.writeHiLo (signedDivide s a b).2 (signedDivide s a b).1) = .next t) := by
  unfold divideSigned
  by_cases h : b = 0#32
  · simp [h]
  · cases hq : quotientOverflows a b <;> simp [h]

theorem divideUnsigned_next (a b : Word) (fin : State → Result) :
    divideUnsigned a b fin s = .next t ↔
      (b = 0#32 ∧ fin (drawHiLo s) = .next t) ∨
      (b ≠ 0#32 ∧ fin (s.writeHiLo (unsignedDivide a b).2 (unsignedDivide a b).1) = .next t) := by
  unfold divideUnsigned
  by_cases h : b = 0#32 <;> simp [h]

/-- A branch always completes and writes nothing but `pc` (44_branch_jump.md R215). -/
theorem branchIf_next (c : Bool) (offset : BitVec 16) :
    branchIf c offset s = .next t ↔ t = s.jump (if c then branchTarget s offset else s.nextPc) := by
  simp [branchIf, eq_comm]

theorem linkingBranch_next (rel : Relation) (rs : Reg) (offset : BitVec 16) :
    linkingBranch rel rs offset s = .next t ↔
      rs ≠ 31#5 ∧ branchIf (relationHolds rel (s.readReg rs) 0#32) offset (s.link 31#5) = .next t := by
  unfold linkingBranch
  by_cases h : rs = 31#5 <;> simp [h]

theorem branchOnFlag_next (z : CopNum) (value : Bool) (offset : BitVec 16) :
    branchOnFlag z value offset s = .next t ↔
      z = 1#2 ∧ branchIf (s.readFlag 1#2 == value) offset s = .next t := by
  unfold branchOnFlag
  by_cases h : z = 1#2 <;> simp [h]

theorem returnFromException_next (fin : State → Result) :
    returnFromException fin s = .next t ↔ s.cfg.statusRestore = .supplied ∧ fin s.restoreStatus = .next t := by
  unfold returnFromException
  cases s.cfg.statusRestore <;> simp

/-- Service 4 completes exactly when the string ends (49_exception_trap_syscall.md R381). -/
theorem printString_next :
    printString s = .next t ↔
      ∃ bs, stringAt s (s.readReg 4#5) (2 ^ 32) (s.readReg 4#5) = .ok bs ∧ t = (s.emit (.printString bs)).jump s.nextPc := by
  unfold printString
  cases stringAt s (s.readReg 4#5) (2 ^ 32) (s.readReg 4#5) <;> simp [done, eq_comm (a := t)]

/-- The four cases of service 8 (R385). -/
theorem readString_next :
    readString s = .next t ↔
      ((s.readReg 5#5).toInt < 1 ∧ done s = .next t) ∨
      (1 ≤ (s.readReg 5#5).toInt ∧ bufferStop s (s.readReg 5#5).toInt.toNat (s.readReg 4#5) = none ∧
        ((s.readReg 5#5).toInt = 1 ∧ done (fillBuffer [] 1 s) = .next t ∨
         (s.readReg 5#5).toInt ≠ 1 ∧
          done (fillBuffer (clippedLine s.inputLine (s.readReg 5#5).toInt.toNat) (s.readReg 5#5).toInt.toNat s.afterLine) =
            .next t)) := by
  unfold readString
  by_cases h : (s.readReg 5#5).toInt < 1
  · have h' : ¬ 1 ≤ (s.readReg 5#5).toInt := by omega
    simp [h, h']
  · have h' : 1 ≤ (s.readReg 5#5).toInt := by omega
    simp only [h, if_false, unlessStop_next, false_and, false_or, h', true_and]
    by_cases h1 : (s.readReg 5#5).toInt = 1 <;> simp [h1]

end Sys2Proof.Machine
end

