-- ==== Sys2Proof/Laws/PerInstr.lean ====
section
/-! SUPPORT. For each constructor of `Instr`: its word has the fixed bits of its row of spec/opcode_table.json. -/

namespace Sys2Proof.Laws

/-- The word of an instruction matches its own row of the table (30_encoding.md R100). -/
def FixedBits.Statement (i : Instr) : Prop := (rowOf i).accepts (encode i) = true

theorem and_wordR (o o' : BitVec 6) (a b c d a' b' c' d' : BitVec 5) (f f' : BitVec 6) :
    wordR o a b c d f &&& wordR o' a' b' c' d' f' = wordR (o &&& o') (a &&& a') (b &&& b') (c &&& c') (d &&& d') (f &&& f') := by
  apply BitVec.eq_of_getLsbD_eq
  intro i hi
  simp only [wordR, BitVec.getLsbD_and, BitVec.getLsbD_cast, BitVec.getLsbD_append]
  interval_cases i <;> simp

theorem and_wordI (o o' : BitVec 6) (a b a' b' : BitVec 5) (m m' : BitVec 16) :
    wordI o a b m &&& wordI o' a' b' m' = wordI (o &&& o') (a &&& a') (b &&& b') (m &&& m') := by
  apply BitVec.eq_of_getLsbD_eq
  intro i hi
  simp only [wordI, BitVec.getLsbD_and, BitVec.getLsbD_cast, BitVec.getLsbD_append]
  interval_cases i <;> simp

theorem and_wordJ (o o' : BitVec 6) (m m' : BitVec 26) :
    wordJ o m &&& wordJ o' m' = wordJ (o &&& o') (m &&& m') := by
  apply BitVec.eq_of_getLsbD_eq
  intro i hi
  simp only [wordJ, BitVec.getLsbD_and, BitVec.getLsbD_cast, BitVec.getLsbD_append]
  interval_cases i <;> simp

theorem and_wordS (o o' : BitVec 6) (m m' : BitVec 20) (f f' : BitVec 6) :
    wordS o m f &&& wordS o' m' f' = wordS (o &&& o') (m &&& m') (f &&& f') := by
  apply BitVec.eq_of_getLsbD_eq
  intro i hi
  simp only [wordS, BitVec.getLsbD_and, BitVec.getLsbD_cast, BitVec.getLsbD_append]
  interval_cases i <;> simp

theorem and_opZ (high : BitVec 4) (z : CopNum) : opZ high z &&& 0b111100#6 = opZ high 0#2 := by
  revert high z; decide

/-- An instruction of the six-field layout whose word has the fixed bits of its row. -/
theorem accepts_wordR {i : Instr} (o o' : BitVec 6) (a b c d a' b' c' d' : BitVec 5) (f f' : BitVec 6)
    (he : encode i = wordR o a b c d f) (hm : (rowOf i).mask = wordR o' a' b' c' d' f')
    (hp : wordR (o &&& o') (a &&& a') (b &&& b') (c &&& c') (d &&& d') (f &&& f') = (rowOf i).pattern) :
    FixedBits.Statement i := by
  rw [FixedBits.Statement, OpcodeRow.accepts, he, hm, and_wordR, hp]; exact beq_self_eq_true _

/-- The same of format `I`. -/
theorem accepts_wordI {i : Instr} (o o' : BitVec 6) (a b a' b' : BitVec 5) (m m' : BitVec 16)
    (he : encode i = wordI o a b m) (hm : (rowOf i).mask = wordI o' a' b' m')
    (hp : wordI (o &&& o') (a &&& a') (b &&& b') (m &&& m') = (rowOf i).pattern) : FixedBits.Statement i := by
  rw [FixedBits.Statement, OpcodeRow.accepts, he, hm, and_wordI, hp]; exact beq_self_eq_true _

/-- The same of format `J`. -/
theorem accepts_wordJ {i : Instr} (o o' : BitVec 6) (m m' : BitVec 26)
    (he : encode i = wordJ o m) (hm : (rowOf i).mask = wordJ o' m')
    (hp : wordJ (o &&& o') (m &&& m') = (rowOf i).pattern) : FixedBits.Statement i := by
  rw [FixedBits.Statement, OpcodeRow.accepts, he, hm, and_wordJ, hp]; exact beq_self_eq_true _

/-- The same of format `SY`. -/
theorem accepts_wordS {i : Instr} (o o' : BitVec 6) (m m' : BitVec 20) (f f' : BitVec 6)
    (he : encode i = wordS o m f) (hm : (rowOf i).mask = wordS o' m' f')
    (hp : wordS (o &&& o') (m &&& m') (f &&& f') = (rowOf i).pattern) : FixedBits.Statement i := by
  rw [FixedBits.Statement, OpcodeRow.accepts, he, hm, and_wordS, hp]; exact beq_self_eq_true _

theorem FixedBits.add (rd : Reg) (rs : Reg) (rt : Reg) : FixedBits.Statement (.add rd rs rt) :=
  accepts_wordR _ 0x3f _ _ _ _ 0x0 0x0 0x0 0x1f _ 0x3f rfl rfl (by simp; rfl)

theorem FixedBits.addu (rd : Reg) (rs : Reg) (rt : Reg) : FixedBits.Statement (.addu rd rs rt) :=
  accepts_wordR _ 0x3f _ _ _ _ 0x0 0x0 0x0 0x1f _ 0x3f rfl rfl (by simp; rfl)

theorem FixedBits.addi (rt : Reg) (rs : Reg) (imm : BitVec 16) : FixedBits.Statement (.addi rt rs imm) :=
  accepts_wordI _ 0x3f _ _ 0x0 0x0 _ 0x0 rfl rfl (by simp; rfl)

theorem FixedBits.addiu (rt : Reg) (rs : Reg) (imm : BitVec 16) : FixedBits.Statement (.addiu rt rs imm) :=
  accepts_wordI _ 0x3f _ _ 0x0 0x0 _ 0x0 rfl rfl (by simp; rfl)

theorem FixedBits.sub (rd : Reg) (rs : Reg) (rt : Reg) : FixedBits.Statement (.sub rd rs rt) :=
  accepts_wordR _ 0x3f _ _ _ _ 0x0 0x0 0x0 0x1f _ 0x3f rfl rfl (by simp; rfl)

theorem FixedBits.subu (rd : Reg) (rs : Reg) (rt : Reg) : FixedBits.Statement (.subu rd rs rt) :=
  accepts_wordR _ 0x3f _ _ _ _ 0x0 0x0 0x0 0x1f _ 0x3f rfl rfl (by simp; rfl)

theorem FixedBits.mult (rs : Reg) (rt : Reg) : FixedBits.Statement (.mult rs rt) :=
  accepts_wordR _ 0x3f _ _ _ _ 0x0 0x0 0x1f 0x1f _ 0x3f rfl rfl (by simp; rfl)

theorem FixedBits.multu (rs : Reg) (rt : Reg) : FixedBits.Statement (.multu rs rt) :=
  accepts_wordR _ 0x3f _ _ _ _ 0x0 0x0 0x1f 0x1f _ 0x3f rfl rfl (by simp; rfl)

theorem FixedBits.div (rs : Reg) (rt : Reg) : FixedBits.Statement (.div rs rt) :=
  accepts_wordR _ 0x3f _ _ _ _ 0x0 0x0 0x1f 0x1f _ 0x3f rfl rfl (by simp; rfl)

theorem FixedBits.divu (rs : Reg) (rt : Reg) : FixedBits.Statement (.divu rs rt) :=
  accepts_wordR _ 0x3f _ _ _ _ 0x0 0x0 0x1f 0x1f _ 0x3f rfl rfl (by simp; rfl)

theorem FixedBits.and (rd : Reg) (rs : Reg) (rt : Reg) : FixedBits.Statement (.and rd rs rt) :=
  accepts_wordR _ 0x3f _ _ _ _ 0x0 0x0 0x0 0x1f _ 0x3f rfl rfl (by simp; rfl)

theorem FixedBits.andi (rd : Reg) (rs : Reg) (imm : BitVec 16) : FixedBits.Statement (.andi rd rs imm) :=
  accepts_wordI _ 0x3f _ _ 0x0 0x0 _ 0x0 rfl rfl (by simp; rfl)

theorem FixedBits.nor (rd : Reg) (rs : Reg) (rt : Reg) : FixedBits.Statement (.nor rd rs rt) :=
  accepts_wordR _ 0x3f _ _ _ _ 0x0 0x0 0x0 0x1f _ 0x3f rfl rfl (by simp; rfl)

theorem FixedBits.or (rd : Reg) (rs : Reg) (rt : Reg) : FixedBits.Statement (.or rd rs rt) :=
  accepts_wordR _ 0x3f _ _ _ _ 0x0 0x0 0x0 0x1f _ 0x3f rfl rfl (by simp; rfl)

theorem FixedBits.ori (rt : Reg) (rs : Reg) (imm : BitVec 16) : FixedBits.Statement (.ori rt rs imm) :=
  accepts_wordI _ 0x3f _ _ 0x0 0x0 _ 0x0 rfl rfl (by simp; rfl)

theorem FixedBits.xor (rd : Reg) (rs : Reg) (rt : Reg) : FixedBits.Statement (.xor rd rs rt) :=
  accepts_wordR _ 0x3f _ _ _ _ 0x0 0x0 0x0 0x1f _ 0x3f rfl rfl (by simp; rfl)

theorem FixedBits.xori (rt : Reg) (rs : Reg) (imm : BitVec 16) : FixedBits.Statement (.xori rt rs imm) :=
  accepts_wordI _ 0x3f _ _ 0x0 0x0 _ 0x0 rfl rfl (by simp; rfl)

theorem FixedBits.sll (rd : Reg) (rt : Reg) (sa : BitVec 5) (ign : BitVec 5) : FixedBits.Statement (.sll rd rt sa ign) :=
  accepts_wordR _ 0x3f _ _ _ _ 0x0 0x0 0x0 0x0 _ 0x3f rfl rfl (by simp; rfl)

theorem FixedBits.sllv (rd : Reg) (rt : Reg) (rs : Reg) : FixedBits.Statement (.sllv rd rt rs) :=
  accepts_wordR _ 0x3f _ _ _ _ 0x0 0x0 0x0 0x1f _ 0x3f rfl rfl (by simp; rfl)

theorem FixedBits.sra (rd : Reg) (rt : Reg) (sa : BitVec 5) (ign : BitVec 5) : FixedBits.Statement (.sra rd rt sa ign) :=
  accepts_wordR _ 0x3f _ _ _ _ 0x0 0x0 0x0 0x0 _ 0x3f rfl rfl (by simp; rfl)

theorem FixedBits.srav (rd : Reg) (rt : Reg) (rs : Reg) : FixedBits.Statement (.srav rd rt rs) :=
  accepts_wordR _ 0x3f _ _ _ _ 0x0 0x0 0x0 0x1f _ 0x3f rfl rfl (by simp; rfl)

theorem FixedBits.srl (rd : Reg) (rt : Reg) (sa : BitVec 5) (ign : BitVec 5) : FixedBits.Statement (.srl rd rt sa ign) :=
  accepts_wordR _ 0x3f _ _ _ _ 0x0 0x0 0x0 0x0 _ 0x3f rfl rfl (by simp; rfl)

theorem FixedBits.srlv (rd : Reg) (rt : Reg) (rs : Reg) : FixedBits.Statement (.srlv rd rt rs) :=
  accepts_wordR _ 0x3f _ _ _ _ 0x0 0x0 0x0 0x1f _ 0x3f rfl rfl (by simp; rfl)

theorem FixedBits.lui (rt : Reg) (imm : BitVec 16) : FixedBits.Statement (.lui rt imm) :=
  accepts_wordI _ 0x3f _ _ 0x1f 0x0 _ 0x0 rfl rfl (by simp; rfl)

theorem FixedBits.slt (rd : Reg) (rs : Reg) (rt : Reg) : FixedBits.Statement (.slt rd rs rt) :=
  accepts_wordR _ 0x3f _ _ _ _ 0x0 0x0 0x0 0x1f _ 0x3f rfl rfl (by simp; rfl)

theorem FixedBits.sltu (rd : Reg) (rs : Reg) (rt : Reg) : FixedBits.Statement (.sltu rd rs rt) :=
  accepts_wordR _ 0x3f _ _ _ _ 0x0 0x0 0x0 0x1f _ 0x3f rfl rfl (by simp; rfl)

theorem FixedBits.slti (rt : Reg) (rs : Reg) (imm : BitVec 16) : FixedBits.Statement (.slti rt rs imm) :=
  accepts_wordI _ 0x3f _ _ 0x0 0x0 _ 0x0 rfl rfl (by simp; rfl)

theorem FixedBits.sltiu (rt : Reg) (rs : Reg) (imm : BitVec 16) : FixedBits.Statement (.sltiu rt rs imm) :=
  accepts_wordI _ 0x3f _ _ 0x0 0x0 _ 0x0 rfl rfl (by simp; rfl)

theorem FixedBits.bczt (z : CopNum) (offset : BitVec 16) : FixedBits.Statement (.bczt z offset) :=
  accepts_wordI _ 0x3c _ _ 0x1f 0x1f _ 0x0 rfl rfl (by simp [and_opZ]; rfl)

theorem FixedBits.bczf (z : CopNum) (offset : BitVec 16) : FixedBits.Statement (.bczf z offset) :=
  accepts_wordI _ 0x3c _ _ 0x1f 0x1f _ 0x0 rfl rfl (by simp [and_opZ]; rfl)

theorem FixedBits.beq (rs : Reg) (rt : Reg) (offset : BitVec 16) : FixedBits.Statement (.beq rs rt offset) :=
  accepts_wordI _ 0x3f _ _ 0x0 0x0 _ 0x0 rfl rfl (by simp; rfl)

theorem FixedBits.bgez (rs : Reg) (offset : BitVec 16) : FixedBits.Statement (.bgez rs offset) :=
  accepts_wordI _ 0x3f _ _ 0x0 0x1f _ 0x0 rfl rfl (by simp; rfl)

theorem FixedBits.bgezal (rs : Reg) (offset : BitVec 16) : FixedBits.Statement (.bgezal rs offset) :=
  accepts_wordI _ 0x3f _ _ 0x0 0x1f _ 0x0 rfl rfl (by simp; rfl)

theorem FixedBits.bgtz (rs : Reg) (offset : BitVec 16) : FixedBits.Statement (.bgtz rs offset) :=
  accepts_wordI _ 0x3f _ _ 0x0 0x1f _ 0x0 rfl rfl (by simp; rfl)

theorem FixedBits.blez (rs : Reg) (offset : BitVec 16) : FixedBits.Statement (.blez rs offset) :=
  accepts_wordI _ 0x3f _ _ 0x0 0x1f _ 0x0 rfl rfl (by simp; rfl)

theorem FixedBits.bltzal (rs : Reg) (offset : BitVec 16) : FixedBits.Statement (.bltzal rs offset) :=
  accepts_wordI _ 0x3f _ _ 0x0 0x1f _ 0x0 rfl rfl (by simp; rfl)

theorem FixedBits.bltz (rs : Reg) (offset : BitVec 16) : FixedBits.Statement (.bltz rs offset) :=
  accepts_wordI _ 0x3f _ _ 0x0 0x1f _ 0x0 rfl rfl (by simp; rfl)

theorem FixedBits.bne (rs : Reg) (rt : Reg) (offset : BitVec 16) : FixedBits.Statement (.bne rs rt offset) :=
  accepts_wordI _ 0x3f _ _ 0x0 0x0 _ 0x0 rfl rfl (by simp; rfl)

theorem FixedBits.j (target : BitVec 26) : FixedBits.Statement (.j target) :=
  accepts_wordJ _ 0x3f _ 0x0 rfl rfl (by simp; rfl)

theorem FixedBits.jal (target : BitVec 26) : FixedBits.Statement (.jal target) :=
  accepts_wordJ _ 0x3f _ 0x0 rfl rfl (by simp; rfl)

theorem FixedBits.jalr (rd : Reg) (rs : Reg) : FixedBits.Statement (.jalr rd rs) :=
  accepts_wordR _ 0x3f _ _ _ _ 0x0 0x1f 0x0 0x1f _ 0x3f rfl rfl (by simp; rfl)

theorem FixedBits.jr (rs : Reg) : FixedBits.Statement (.jr rs) :=
  accepts_wordR _ 0x3f _ _ _ _ 0x0 0x1f 0x1f 0x1f _ 0x3f rfl rfl (by simp; rfl)

theorem FixedBits.lb (rt : Reg) (base : Reg) (offset : BitVec 16) : FixedBits.Statement (.lb rt base offset) :=
  accepts_wordI _ 0x3f _ _ 0x0 0x0 _ 0x0 rfl rfl (by simp; rfl)

theorem FixedBits.lbu (rt : Reg) (base : Reg) (offset : BitVec 16) : FixedBits.Statement (.lbu rt base offset) :=
  accepts_wordI _ 0x3f _ _ 0x0 0x0 _ 0x0 rfl rfl (by simp; rfl)

theorem FixedBits.lh (rt : Reg) (base : Reg) (offset : BitVec 16) : FixedBits.Statement (.lh rt base offset) :=
  accepts_wordI _ 0x3f _ _ 0x0 0x0 _ 0x0 rfl rfl (by simp; rfl)

theorem FixedBits.lhu (rt : Reg) (base : Reg) (offset : BitVec 16) : FixedBits.Statement (.lhu rt base offset) :=
  accepts_wordI _ 0x3f _ _ 0x0 0x0 _ 0x0 rfl rfl (by simp; rfl)

theorem FixedBits.lw (rt : Reg) (base : Reg) (offset : BitVec 16) : FixedBits.Statement (.lw rt base offset) :=
  accepts_wordI _ 0x3f _ _ 0x0 0x0 _ 0x0 rfl rfl (by simp; rfl)

theorem FixedBits.lwcz (z : CopNum) (rt : Reg) (base : Reg) (offset : BitVec 16) : FixedBits.Statement (.lwcz z rt base offset) :=
  accepts_wordI _ 0x3c _ _ 0x0 0x0 _ 0x0 rfl rfl (by simp [and_opZ]; rfl)

theorem FixedBits.lwl (rt : Reg) (base : Reg) (offset : BitVec 16) : FixedBits.Statement (.lwl rt base offset) :=
  accepts_wordI _ 0x3f _ _ 0x0 0x0 _ 0x0 rfl rfl (by simp; rfl)

theorem FixedBits.lwr (rt : Reg) (base : Reg) (offset : BitVec 16) : FixedBits.Statement (.lwr rt base offset) :=
  accepts_wordI _ 0x3f _ _ 0x0 0x0 _ 0x0 rfl rfl (by simp; rfl)

theorem FixedBits.sb (rt : Reg) (base : Reg) (offset : BitVec 16) : FixedBits.Statement (.sb rt base offset) :=
  accepts_wordI _ 0x3f _ _ 0x0 0x0 _ 0x0 rfl rfl (by simp; rfl)

theorem FixedBits.sh (rt : Reg) (base : Reg) (offset : BitVec 16) : FixedBits.Statement (.sh rt base offset) :=
  accepts_wordI _ 0x3f _ _ 0x0 0x0 _ 0x0 rfl rfl (by simp; rfl)

theorem FixedBits.sw (rt : Reg) (base : Reg) (offset : BitVec 16) : FixedBits.Statement (.sw rt base offset) :=
  accepts_wordI _ 0x3f _ _ 0x0 0x0 _ 0x0 rfl rfl (by simp; rfl)

theorem FixedBits.swcz (z : CopNum) (rt : Reg) (base : Reg) (offset : BitVec 16) : FixedBits.Statement (.swcz z rt base offset) :=
  accepts_wordI _ 0x3c _ _ 0x0 0x0 _ 0x0 rfl rfl (by simp [and_opZ]; rfl)

theorem FixedBits.swl (rt : Reg) (base : Reg) (offset : BitVec 16) : FixedBits.Statement (.swl rt base offset) :=
  accepts_wordI _ 0x3f _ _ 0x0 0x0 _ 0x0 rfl rfl (by simp; rfl)

theorem FixedBits.swr (rt : Reg) (base : Reg) (offset : BitVec 16) : FixedBits.Statement (.swr rt base offset) :=
  accepts_wordI _ 0x3f _ _ 0x0 0x0 _ 0x0 rfl rfl (by simp; rfl)

theorem FixedBits.mfhi (rd : Reg) : FixedBits.Statement (.mfhi rd) :=
  accepts_wordR _ 0x3f _ _ _ _ 0x1f 0x1f 0x0 0x1f _ 0x3f rfl rfl (by simp; rfl)

theorem FixedBits.mflo (rd : Reg) : FixedBits.Statement (.mflo rd) :=
  accepts_wordR _ 0x3f _ _ _ _ 0x1f 0x1f 0x0 0x1f _ 0x3f rfl rfl (by simp; rfl)

theorem FixedBits.mthi (rs : Reg) : FixedBits.Statement (.mthi rs) :=
  accepts_wordR _ 0x3f _ _ _ _ 0x0 0x1f 0x1f 0x1f _ 0x3f rfl rfl (by simp; rfl)

theorem FixedBits.mtlo (rs : Reg) : FixedBits.Statement (.mtlo rs) :=
  accepts_wordR _ 0x3f _ _ _ _ 0x0 0x1f 0x1f 0x1f _ 0x3f rfl rfl (by simp; rfl)

theorem FixedBits.mfcz (z : CopNum) (rt : Reg) (rd : Reg) : FixedBits.Statement (.mfcz z rt rd) :=
  accepts_wordR _ 0x3c _ _ _ _ 0x1f 0x0 0x0 0x1f _ 0x3f rfl rfl (by simp [and_opZ]; rfl)

theorem FixedBits.mtcz (z : CopNum) (rt : Reg) (rd : Reg) : FixedBits.Statement (.mtcz z rt rd) :=
  accepts_wordR _ 0x3c _ _ _ _ 0x1f 0x0 0x0 0x1f _ 0x3f rfl rfl (by simp [and_opZ]; rfl)

theorem FixedBits.absD (fd : Reg) (fs : Reg) : FixedBits.Statement (.absD fd fs) :=
  accepts_wordR _ 0x3f _ _ _ _ 0x1f 0x1f 0x0 0x0 _ 0x3f rfl rfl (by simp; rfl)

theorem FixedBits.absS (fd : Reg) (fs : Reg) : FixedBits.Statement (.absS fd fs) :=
  accepts_wordR _ 0x3f _ _ _ _ 0x1f 0x1f 0x0 0x0 _ 0x3f rfl rfl (by simp; rfl)

theorem FixedBits.addD (fd : Reg) (fs : Reg) (ft : Reg) : FixedBits.Statement (.addD fd fs ft) :=
  accepts_wordR _ 0x3f _ _ _ _ 0x1f 0x0 0x0 0x0 _ 0x3f rfl rfl (by simp; rfl)

theorem FixedBits.addS (fd : Reg) (fs : Reg) (ft : Reg) : FixedBits.Statement (.addS fd fs ft) :=
  accepts_wordR _ 0x3f _ _ _ _ 0x1f 0x0 0x0 0x0 _ 0x3f rfl rfl (by simp; rfl)

theorem FixedBits.cEqD (fs : Reg) (ft : Reg) : FixedBits.Statement (.cEqD fs ft) :=
  accepts_wordR _ 0x3f _ _ _ _ 0x1f 0x0 0x0 0x1f _ 0x3f rfl rfl (by simp; rfl)

theorem FixedBits.cEqS (fs : Reg) (ft : Reg) : FixedBits.Statement (.cEqS fs ft) :=
  accepts_wordR _ 0x3f _ _ _ _ 0x1f 0x0 0x0 0x1f _ 0x3f rfl rfl (by simp; rfl)

theorem FixedBits.cLeD (fs : Reg) (ft : Reg) : FixedBits.Statement (.cLeD fs ft) :=
  accepts_wordR _ 0x3f _ _ _ _ 0x1f 0x0 0x0 0x1f _ 0x3f rfl rfl (by simp; rfl)

theorem FixedBits.cLeS (fs : Reg) (ft : Reg) : FixedBits.Statement (.cLeS fs ft) :=
  accepts_wordR _ 0x3f _ _ _ _ 0x1f 0x0 0x0 0x1f _ 0x3f rfl rfl (by simp; rfl)

theorem FixedBits.cLtD (fs : Reg) (ft : Reg) : FixedBits.Statement (.cLtD fs ft) :=
  accepts_wordR _ 0x3f _ _ _ _ 0x1f 0x0 0x0 0x1f _ 0x3f rfl rfl (by simp; rfl)

theorem FixedBits.cLtS (fs : Reg) (ft : Reg) : FixedBits.Statement (.cLtS fs ft) :=
  accepts_wordR _ 0x3f _ _ _ _ 0x1f 0x0 0x0 0x1f _ 0x3f rfl rfl (by simp; rfl)

theorem FixedBits.cvtDS (fd : Reg) (fs : Reg) : FixedBits.Statement (.cvtDS fd fs) :=
  accepts_wordR _ 0x3f _ _ _ _ 0x1f 0x1f 0x0 0x0 _ 0x3f rfl rfl (by simp; rfl)

theorem FixedBits.cvtDW (fd : Reg) (fs : Reg) : FixedBits.Statement (.cvtDW fd fs) :=
  accepts_wordR _ 0x3f _ _ _ _ 0x1f 0x1f 0x0 0x0 _ 0x3f rfl rfl (by simp; rfl)

theorem FixedBits.cvtSD (fd : Reg) (fs : Reg) : FixedBits.Statement (.cvtSD fd fs) :=
  accepts_wordR _ 0x3f _ _ _ _ 0x1f 0x1f 0x0 0x0 _ 0x3f rfl rfl (by simp; rfl)

theorem FixedBits.cvtSW (fd : Reg) (fs : Reg) : FixedBits.Statement (.cvtSW fd fs) :=
  accepts_wordR _ 0x3f _ _ _ _ 0x1f 0x1f 0x0 0x0 _ 0x3f rfl rfl (by simp; rfl)

theorem FixedBits.cvtWD (fd : Reg) (fs : Reg) : FixedBits.Statement (.cvtWD fd fs) :=
  accepts_wordR _ 0x3f _ _ _ _ 0x1f 0x1f 0x0 0x0 _ 0x3f rfl rfl (by simp; rfl)

theorem FixedBits.cvtWS (fd : Reg) (fs : Reg) : FixedBits.Statement (.cvtWS fd fs) :=
  accepts_wordR _ 0x3f _ _ _ _ 0x1f 0x1f 0x0 0x0 _ 0x3f rfl rfl (by simp; rfl)

theorem FixedBits.divD (fd : Reg) (fs : Reg) (ft : Reg) : FixedBits.Statement (.divD fd fs ft) :=
  accepts_wordR _ 0x3f _ _ _ _ 0x1f 0x0 0x0 0x0 _ 0x3f rfl rfl (by simp; rfl)

theorem FixedBits.divS (fd : Reg) (fs : Reg) (ft : Reg) : FixedBits.Statement (.divS fd fs ft) :=
  accepts_wordR _ 0x3f _ _ _ _ 0x1f 0x0 0x0 0x0 _ 0x3f rfl rfl (by simp; rfl)

theorem FixedBits.movD (fd : Reg) (fs : Reg) : FixedBits.Statement (.movD fd fs) :=
  accepts_wordR _ 0x3f _ _ _ _ 0x1f 0x1f 0x0 0x0 _ 0x3f rfl rfl (by simp; rfl)

theorem FixedBits.movS (fd : Reg) (fs : Reg) : FixedBits.Statement (.movS fd fs) :=
  accepts_wordR _ 0x3f _ _ _ _ 0x1f 0x1f 0x0 0x0 _ 0x3f rfl rfl (by simp; rfl)

theorem FixedBits.mulD (fd : Reg) (fs : Reg) (ft : Reg) : FixedBits.Statement (.mulD fd fs ft) :=
  accepts_wordR _ 0x3f _ _ _ _ 0x1f 0x0 0x0 0x0 _ 0x3f rfl rfl (by simp; rfl)

theorem FixedBits.mulS (fd : Reg) (fs : Reg) (ft : Reg) : FixedBits.Statement (.mulS fd fs ft) :=
  accepts_wordR _ 0x3f _ _ _ _ 0x1f 0x0 0x0 0x0 _ 0x3f rfl rfl (by simp; rfl)

theorem FixedBits.negD (fd : Reg) (fs : Reg) : FixedBits.Statement (.negD fd fs) :=
  accepts_wordR _ 0x3f _ _ _ _ 0x1f 0x1f 0x0 0x0 _ 0x3f rfl rfl (by simp; rfl)

theorem FixedBits.negS (fd : Reg) (fs : Reg) : FixedBits.Statement (.negS fd fs) :=
  accepts_wordR _ 0x3f _ _ _ _ 0x1f 0x1f 0x0 0x0 _ 0x3f rfl rfl (by simp; rfl)

theorem FixedBits.subD (fd : Reg) (fs : Reg) (ft : Reg) : FixedBits.Statement (.subD fd fs ft) :=
  accepts_wordR _ 0x3f _ _ _ _ 0x1f 0x0 0x0 0x0 _ 0x3f rfl rfl (by simp; rfl)

theorem FixedBits.subS (fd : Reg) (fs : Reg) (ft : Reg) : FixedBits.Statement (.subS fd fs ft) :=
  accepts_wordR _ 0x3f _ _ _ _ 0x1f 0x0 0x0 0x0 _ 0x3f rfl rfl (by simp; rfl)

theorem FixedBits.rfe : FixedBits.Statement (.rfe) :=
  accepts_wordR _ 0x3f _ _ _ _ 0x1f 0x1f 0x1f 0x1f _ 0x3f rfl rfl (by rfl)

theorem FixedBits.syscall : FixedBits.Statement (.syscall) :=
  accepts_wordS _ 0x3f _ 0xfffff _ 0x3f rfl rfl (by rfl)

theorem FixedBits.brk (code : BitVec 20) : FixedBits.Statement (.brk code) :=
  accepts_wordS _ 0x3f _ 0x0 _ 0x3f rfl rfl (by simp; rfl)

theorem FixedBits.nop : FixedBits.Statement (.nop) :=
  accepts_wordR _ 0x3f _ _ _ _ 0x1f 0x1f 0x1f 0x1f _ 0x3f rfl rfl (by rfl)

end Sys2Proof.Laws
end

