-- ==== Sys2Proof/Laws/Runs.lean ====
section
/-! SUPPORT. Runs, of words or of statements (60_exceptions.md R418). -/

namespace Sys2Proof.Machine

variable {run : State → Result} {s t u : State}

/-- A state has one successor at most. -/
theorem stepsTo_unique (ht : stepsTo run s t) (hu : stepsTo run s u) : t = u :=
  Host.Outcome.next.inj (ht.symm.trans hu)

/-- After a number of steps a run is in one state. -/
theorem reachesIn_unique (n : Nat) (ht : reachesIn run n s t) (hu : reachesIn run n s u) : t = u := by
  induction n generalizing s with
  | zero => exact ht.symm.trans hu
  | succ n ih =>
    obtain ⟨v, hv, ht⟩ := ht
    obtain ⟨w, hw, hu⟩ := hu
    cases stepsTo_unique hv hw
    exact ih ht hu

/-- One more step at the end of a run. -/
theorem reachesIn_snoc (n : Nat) : reachesIn run (n + 1) s u ↔ ∃ t, reachesIn run n s t ∧ stepsTo run t u := by
  induction n generalizing s with
  | zero => simp [reachesIn]
  | succ n ih =>
    rw [reachesIn]
    simp only [ih]
    constructor
    · rintro ⟨v, hv, t, ht, htu⟩
      exact ⟨t, ⟨v, hv, ht⟩, htu⟩
    · rintro ⟨t, ⟨v, hv, ht⟩, htu⟩
      exact ⟨v, hv, t, ht, htu⟩

/-- What a program of statements does where one stands at `pc` (30_encoding.md R108, log 38). -/
theorem statementStep_some {program : List (Word × Statement)} {statement : Statement}
    (h : statementAt program s.pc = some statement) :
    statementStep program s =
      if s.ended then .fault .runEnded else unlessStop (fetchStop s) s (execStatement statement s) := by
  simp [statementStep, h]

/-- A run that has ended takes no step (log 18). -/
theorem step_ended (h : s.ended = true) : step s = .fault .runEnded := by simp [step, h]

end Sys2Proof.Machine
end

