-- ==== Sys2Proof/Tests/Slice0.lean ====
section
/-! SUPPORT. Tests, each about one word, one step or one term. The words, start states and expected results come from the
rows of spec/95_test_vectors.md whose id ends a test's name (`test_add_ar1` is row AR1) and from the examples of the rules;
and, for each statement with hypotheses, a witness that meets them. -/

namespace Sys2Proof.Machine

/-- A state whose bytes from an address on are the given ones. -/
def State.withBytes (s : State) (a : Word) (bs : List Byte) : State := s.writeBytes ((bytesFrom a bs.length).zip bs)

/-- The bytes from an address on. -/
def State.bytesAt (s : State) (a : Word) (n : Nat) : List Byte := (bytesFrom a n).map s.byteAt

end Sys2Proof.Machine

namespace Sys2Proof.Tests

set_option Elab.async false

open Sys2Proof Sys2Proof.Machine Sys2Proof.Claims

/-! ## Helpers -/

/-- The start state of the vectors: that after reset, little-endian, one region of text and one of data. -/
def start : State := State.reset

/-- The same under big-endian byte order. -/
def startBig : State := { State.reset with cfg := { resetConfig with endian := .big } }

/-- A part of the next state, if there is one. -/
def after {α : Type} (r : Machine.Result) (f : State → α) : Option α :=
  match r with
  | .next t => some (f t)
  | .fault _ => none
  | .refused _ => none

/-- The fault of a result, if it is one. -/
def faultOf (r : Machine.Result) : Option Fault :=
  match r with
  | .next _ => none
  | .fault f => some f
  | .refused _ => none

/-- The refusal of a result, if it is one. -/
def refusalOf (r : Machine.Result) : Option Refusal :=
  match r with
  | .next _ => none
  | .fault _ => none
  | .refused f => some f

/-- A result with a next state, by evaluation. -/
theorem exists_next {r : Machine.Result} {p : State → Bool} (h : after r p = some true) : ∃ t, r = .next t ∧ p t = true := by
  cases r with
  | next t => exact ⟨t, rfl, Option.some.inj h⟩
  | fault f => cases h
  | refused f => cases h

/-- A region of one class, by evaluation. -/
theorem allClass {s : State} {c : AddrClass} {addrs : List Word} (h : addrs.all (fun a => s.classAt a == c) = true) :
    ∀ a ∈ addrs, s.classAt a = c := fun a ha => beq_iff_eq.mp (List.all_eq_true.mp h a ha)

/-- Allocated addresses, by evaluation. -/
theorem allocatedBy {s : State} {addrs : List Word} (h : s.anyOf .unmapped addrs = false) : allocated s addrs :=
  fun a ha hu => by simp [State.anyOf] at h; exact h a ha hu

/-- Data addresses, by evaluation. -/
theorem writableBy {s : State} {addrs : List Word} (h : addrs.all (fun a => s.classAt a == .data) = true) :
    writable s addrs := allClass h

/-- An address of a class, by evaluation. -/
theorem touchesBy {s : State} {c : AddrClass} {addrs : List Word} (h : s.anyOf c addrs = true) : touches s c addrs := by
  obtain ⟨a, ha, hc⟩ := List.any_eq_true.mp h
  exact ⟨a, ha, beq_iff_eq.mp hc⟩

/-- A state that can fetch, by evaluation. -/
theorem fetchableBy {s : State} (h : s.ended = false ∧ s.pc.toNat % 4 = 0 ∧
    (bytesFrom s.pc 4).all (fun a => s.classAt a == .text) = true) : fetchable s := ⟨h.1, h.2.1, allClass h.2.2⟩

/-! ## Machine instructions, row by row -/

theorem test_decode_add : decodeWord 0x00221820 = .ok (.add 3 1 2) := by decide +kernel
theorem test_add_ar1 :
    after (exec (.add 3 1 2) ((start.writeReg 1 0x00000007).writeReg 2 0xFFFFFFFE))
      (fun t => (t.readReg 3, t.pc)) =
        some ((0x00000005 : Word), (0x00400004 : Word)) := by decide +kernel
theorem test_add_ar2 :
    faultOf (exec (.add 3 1 2) ((start.writeReg 1 0x7FFFFFFF).writeReg 2 0x00000001)) =
      some (.raised (.overflow) 0x00400000) := by decide +kernel

theorem test_decode_addu : decodeWord 0x00221821 = .ok (.addu 3 1 2) := by decide +kernel
theorem test_addu_ar8 :
    after (exec (.addu 3 1 2) ((start.writeReg 1 0xFFFFFFFF).writeReg 2 0x00000002))
      (fun t => (t.readReg 3, t.pc)) =
        some ((0x00000001 : Word), (0x00400004 : Word)) := by decide +kernel
theorem test_addu_ar9 :
    after (exec (.addu 3 1 2) ((start.writeReg 1 0x7FFFFFFF).writeReg 2 0x00000001))
      (fun t => (t.readReg 3, t.pc)) =
        some ((0x80000000 : Word), (0x00400004 : Word)) := by decide +kernel

theorem test_decode_addi : decodeWord 0x2022FFFF = .ok (.addi 2 1 0xffff) := by decide +kernel
theorem test_addi_ar10 :
    after (exec (.addi 2 1 0xffff) (start.writeReg 1 0x0000000A))
      (fun t => (t.readReg 2, t.pc)) =
        some ((0x00000009 : Word), (0x00400004 : Word)) := by decide +kernel
theorem test_addi_ar11 :
    faultOf (exec (.addi 2 1 0xffff) (start.writeReg 1 0x80000000)) =
      some (.raised (.overflow) 0x00400000) := by decide +kernel

theorem test_decode_addiu : decodeWord 0x2422FFFF = .ok (.addiu 2 1 0xffff) := by decide +kernel
theorem test_addiu_ar16 :
    after (exec (.addiu 2 1 0xffff) (start.writeReg 1 0x00000000))
      (fun t => (t.readReg 2, t.pc)) =
        some ((0xFFFFFFFF : Word), (0x00400004 : Word)) := by decide +kernel
theorem test_addiu_ar17 :
    after (exec (.addiu 2 1 1) (start.writeReg 1 0x7FFFFFFF))
      (fun t => (t.readReg 2, t.pc)) =
        some ((0x80000000 : Word), (0x00400004 : Word)) := by decide +kernel

theorem test_decode_sub : decodeWord 0x00221822 = .ok (.sub 3 1 2) := by decide +kernel
theorem test_sub_ar19 :
    after (exec (.sub 3 1 2) ((start.writeReg 1 0x00000005).writeReg 2 0x00000007))
      (fun t => (t.readReg 3, t.pc)) =
        some ((0xFFFFFFFE : Word), (0x00400004 : Word)) := by decide +kernel
theorem test_sub_ar20 :
    faultOf (exec (.sub 3 1 2) ((start.writeReg 1 0x80000000).writeReg 2 0x00000001)) =
      some (.raised (.overflow) 0x00400000) := by decide +kernel

theorem test_decode_subu : decodeWord 0x00221823 = .ok (.subu 3 1 2) := by decide +kernel
theorem test_subu_ar23 :
    after (exec (.subu 3 1 2) ((start.writeReg 1 0x00000000).writeReg 2 0x00000001))
      (fun t => (t.readReg 3, t.pc)) =
        some ((0xFFFFFFFF : Word), (0x00400004 : Word)) := by decide +kernel
theorem test_subu_ar24 :
    after (exec (.subu 3 1 2) ((start.writeReg 1 0x80000000).writeReg 2 0x00000001))
      (fun t => (t.readReg 3, t.pc)) =
        some ((0x7FFFFFFF : Word), (0x00400004 : Word)) := by decide +kernel

theorem test_decode_mult : decodeWord 0x00850018 = .ok (.mult 4 5) := by decide +kernel
theorem test_mult_ar26 :
    after (exec (.mult 4 5) ((start.writeReg 4 0x00010000).writeReg 5 0x00010000))
      (fun t => (t.hi, t.lo, t.pc)) =
        some ((0x00000001 : Word), (0x00000000 : Word), (0x00400004 : Word)) := by decide +kernel
theorem test_mult_ar27 :
    after (exec (.mult 4 5) ((start.writeReg 4 0xFFFFFFFD).writeReg 5 0x00000005))
      (fun t => (t.hi, t.lo, t.pc)) =
        some ((0xFFFFFFFF : Word), (0xFFFFFFF1 : Word), (0x00400004 : Word)) := by decide +kernel

theorem test_decode_multu : decodeWord 0x00850019 = .ok (.multu 4 5) := by decide +kernel
theorem test_multu_ar30 :
    after (exec (.multu 4 5) ((start.writeReg 4 0xFFFFFFFF).writeReg 5 0x00000002))
      (fun t => (t.hi, t.lo, t.pc)) =
        some ((0x00000001 : Word), (0xFFFFFFFE : Word), (0x00400004 : Word)) := by decide +kernel
theorem test_multu_ar31 :
    after (exec (.multu 4 5) ((start.writeReg 4 0xFFFFFFFF).writeReg 5 0xFFFFFFFF))
      (fun t => (t.hi, t.lo, t.pc)) =
        some ((0xFFFFFFFE : Word), (0x00000001 : Word), (0x00400004 : Word)) := by decide +kernel

theorem test_decode_div : decodeWord 0x0085001A = .ok (.div 4 5) := by decide +kernel
theorem test_div_ar33 :
    after (exec (.div 4 5) ((start.writeReg 4 0x00000064).writeReg 5 0x00000007))
      (fun t => (t.hi, t.lo, t.pc)) =
        some ((0x00000002 : Word), (0x0000000E : Word), (0x00400004 : Word)) := by decide +kernel
theorem test_div_ar39 :
    faultOf (exec (.div 4 5) ((start.writeReg 4 0x80000000).writeReg 5 0xFFFFFFFF)) =
      some (.raised (.overflow) 0x00400000) := by decide +kernel

theorem test_decode_divu : decodeWord 0x0085001B = .ok (.divu 4 5) := by decide +kernel
theorem test_divu_ar40 :
    after (exec (.divu 4 5) ((start.writeReg 4 0xFFFFFFFF).writeReg 5 0x00000010))
      (fun t => (t.hi, t.lo, t.pc)) =
        some ((0x0000000F : Word), (0x0FFFFFFF : Word), (0x00400004 : Word)) := by decide +kernel
theorem test_divu_ar41 :
    after (exec (.divu 4 5) ((start.writeReg 4 0xFFFFFFF9).writeReg 5 0x00000003))
      (fun t => (t.hi, t.lo, t.pc)) =
        some ((0x00000000 : Word), (0x55555553 : Word), (0x00400004 : Word)) := by decide +kernel

theorem test_decode_and : decodeWord 0x00221824 = .ok (.and 3 1 2) := by decide +kernel
theorem test_and_ar76 :
    after (exec (.and 3 1 2) ((start.writeReg 1 0xFF00FF00).writeReg 2 0x0FF00FF0))
      (fun t => (t.readReg 3, t.pc)) =
        some ((0x0F000F00 : Word), (0x00400004 : Word)) := by decide +kernel

theorem test_decode_andi : decodeWord 0x3022FF00 = .ok (.andi 2 1 0xff00) := by decide +kernel
theorem test_andi_ar77 :
    after (exec (.andi 2 1 0xff00) (start.writeReg 1 0x12345678))
      (fun t => (t.readReg 2, t.pc)) =
        some ((0x00005600 : Word), (0x00400004 : Word)) := by decide +kernel
theorem test_andi_ar78 :
    after (exec (.andi 2 1 0xffff) (start.writeReg 1 0xFFFFFFFF))
      (fun t => (t.readReg 2, t.pc)) =
        some ((0x0000FFFF : Word), (0x00400004 : Word)) := by decide +kernel

theorem test_decode_nor : decodeWord 0x00221827 = .ok (.nor 3 1 2) := by decide +kernel
theorem test_nor_ar80 :
    after (exec (.nor 3 1 2) ((start.writeReg 1 0xF0F0F0F0).writeReg 2 0x0000FFFF))
      (fun t => (t.readReg 3, t.pc)) =
        some ((0x0F0F0000 : Word), (0x00400004 : Word)) := by decide +kernel
theorem test_nor_ar81 :
    after (exec (.nor 3 0 0) start)
      (fun t => (t.readReg 3, t.pc)) =
        some ((0xFFFFFFFF : Word), (0x00400004 : Word)) := by decide +kernel

theorem test_decode_or : decodeWord 0x00221825 = .ok (.or 3 1 2) := by decide +kernel
theorem test_or_ar83 :
    after (exec (.or 3 1 2) ((start.writeReg 1 0xF0F0F0F0).writeReg 2 0x0000FFFF))
      (fun t => (t.readReg 3, t.pc)) =
        some ((0xF0F0FFFF : Word), (0x00400004 : Word)) := by decide +kernel
theorem test_or_ar84 :
    after (exec (.or 3 1 0) (start.writeReg 1 0xCAFE0001))
      (fun t => (t.readReg 3, t.pc)) =
        some ((0xCAFE0001 : Word), (0x00400004 : Word)) := by decide +kernel

theorem test_decode_ori : decodeWord 0x34228000 = .ok (.ori 2 1 0x8000) := by decide +kernel
theorem test_ori_ar85 :
    after (exec (.ori 2 1 0x8000) (start.writeReg 1 0x12340000))
      (fun t => (t.readReg 2, t.pc)) =
        some ((0x12348000 : Word), (0x00400004 : Word)) := by decide +kernel
theorem test_ori_cn5 :
    after (exec (.ori 2 2 0x5678) (start.writeReg 2 0x12340000))
      (fun t => (t.readReg 2, t.pc)) =
        some ((0x12345678 : Word), (0x00400004 : Word)) := by decide +kernel

theorem test_decode_xor : decodeWord 0x00221826 = .ok (.xor 3 1 2) := by decide +kernel
theorem test_xor_ar86 :
    after (exec (.xor 3 1 2) ((start.writeReg 1 0xFF00FF00).writeReg 2 0x0FF00FF0))
      (fun t => (t.readReg 3, t.pc)) =
        some ((0xF0F0F0F0 : Word), (0x00400004 : Word)) := by decide +kernel
theorem test_xor_ar87 :
    after (exec (.xor 3 1 1) (start.writeReg 1 0x12345678))
      (fun t => (t.readReg 3, t.pc)) =
        some ((0x00000000 : Word), (0x00400004 : Word)) := by decide +kernel

theorem test_decode_xori : decodeWord 0x3822FFFF = .ok (.xori 2 1 0xffff) := by decide +kernel
theorem test_xori_ar88 :
    after (exec (.xori 2 1 0xffff) (start.writeReg 1 0x12345678))
      (fun t => (t.readReg 2, t.pc)) =
        some ((0x1234A987 : Word), (0x00400004 : Word)) := by decide +kernel

theorem test_decode_sll : decodeWord 0x00021900 = .ok (.sll 3 2 4 0) := by decide +kernel
theorem test_sll_sh1 :
    after (exec (.sll 3 2 4 0) (start.writeReg 2 0xF000000F))
      (fun t => (t.readReg 3, t.pc)) =
        some ((0x000000F0 : Word), (0x00400004 : Word)) := by decide +kernel
theorem test_sll_sh2 :
    after (exec (.sll 3 2 0 0) (start.writeReg 2 0x12345678))
      (fun t => (t.readReg 3, t.pc)) =
        some ((0x12345678 : Word), (0x00400004 : Word)) := by decide +kernel

theorem test_decode_sllv : decodeWord 0x00221804 = .ok (.sllv 3 2 1) := by decide +kernel
theorem test_sllv_sh6 :
    after (exec (.sllv 3 2 1) ((start.writeReg 2 0x00000001).writeReg 1 0x00000008))
      (fun t => (t.readReg 3, t.pc)) =
        some ((0x00000100 : Word), (0x00400004 : Word)) := by decide +kernel
theorem test_sllv_sh7 :
    after (exec (.sllv 3 2 1) ((start.writeReg 2 0x00000001).writeReg 1 0x00000020))
      (fun t => (t.readReg 3, t.pc)) =
        some ((0x00000001 : Word), (0x00400004 : Word)) := by decide +kernel

theorem test_decode_sra : decodeWord 0x00021903 = .ok (.sra 3 2 4 0) := by decide +kernel
theorem test_sra_sh10 :
    after (exec (.sra 3 2 4 0) (start.writeReg 2 0xF0000000))
      (fun t => (t.readReg 3, t.pc)) =
        some ((0xFF000000 : Word), (0x00400004 : Word)) := by decide +kernel
theorem test_sra_sh11 :
    after (exec (.sra 3 2 31 0) (start.writeReg 2 0x80000000))
      (fun t => (t.readReg 3, t.pc)) =
        some ((0xFFFFFFFF : Word), (0x00400004 : Word)) := by decide +kernel

theorem test_decode_srav : decodeWord 0x00221807 = .ok (.srav 3 2 1) := by decide +kernel
theorem test_srav_sh14 :
    after (exec (.srav 3 2 1) ((start.writeReg 2 0x80000000).writeReg 1 0x0000001F))
      (fun t => (t.readReg 3, t.pc)) =
        some ((0xFFFFFFFF : Word), (0x00400004 : Word)) := by decide +kernel
theorem test_srav_sh15 :
    after (exec (.srav 3 2 1) ((start.writeReg 2 0x80000000).writeReg 1 0x00000024))
      (fun t => (t.readReg 3, t.pc)) =
        some ((0xF8000000 : Word), (0x00400004 : Word)) := by decide +kernel

theorem test_decode_srl : decodeWord 0x00021902 = .ok (.srl 3 2 4 0) := by decide +kernel
theorem test_srl_sh16 :
    after (exec (.srl 3 2 4 0) (start.writeReg 2 0xF0000000))
      (fun t => (t.readReg 3, t.pc)) =
        some ((0x0F000000 : Word), (0x00400004 : Word)) := by decide +kernel
theorem test_srl_sh17 :
    after (exec (.srl 3 2 31 0) (start.writeReg 2 0x80000000))
      (fun t => (t.readReg 3, t.pc)) =
        some ((0x00000001 : Word), (0x00400004 : Word)) := by decide +kernel

theorem test_decode_srlv : decodeWord 0x00221806 = .ok (.srlv 3 2 1) := by decide +kernel
theorem test_srlv_sh18 :
    after (exec (.srlv 3 2 1) ((start.writeReg 2 0x80000000).writeReg 1 0x0000001F))
      (fun t => (t.readReg 3, t.pc)) =
        some ((0x00000001 : Word), (0x00400004 : Word)) := by decide +kernel
theorem test_srlv_sh19 :
    after (exec (.srlv 3 2 1) ((start.writeReg 2 0x80000000).writeReg 1 0x00000020))
      (fun t => (t.readReg 3, t.pc)) =
        some ((0x80000000 : Word), (0x00400004 : Word)) := by decide +kernel

theorem test_decode_lui : decodeWord 0x3C021234 = .ok (.lui 2 0x1234) := by decide +kernel
theorem test_lui_cn1 :
    after (exec (.lui 2 0x1234) start)
      (fun t => (t.readReg 2, t.pc)) =
        some ((0x12340000 : Word), (0x00400004 : Word)) := by decide +kernel
theorem test_lui_cn2 :
    after (exec (.lui 2 0x1234) (start.writeReg 2 0xFFFFFFFF))
      (fun t => (t.readReg 2, t.pc)) =
        some ((0x12340000 : Word), (0x00400004 : Word)) := by decide +kernel

theorem test_decode_slt : decodeWord 0x0022182A = .ok (.slt 3 1 2) := by decide +kernel
theorem test_slt_cp1 :
    after (exec (.slt 3 1 2) ((start.writeReg 1 0xFFFFFFFF).writeReg 2 0x00000001))
      (fun t => (t.readReg 3, t.pc)) =
        some ((0x00000001 : Word), (0x00400004 : Word)) := by decide +kernel
theorem test_slt_cp2 :
    after (exec (.slt 3 1 2) ((start.writeReg 1 0x00000001).writeReg 2 0x00000001))
      (fun t => (t.readReg 3, t.pc)) =
        some ((0x00000000 : Word), (0x00400004 : Word)) := by decide +kernel

theorem test_decode_sltu : decodeWord 0x0022182B = .ok (.sltu 3 1 2) := by decide +kernel
theorem test_sltu_cp4 :
    after (exec (.sltu 3 1 2) ((start.writeReg 1 0xFFFFFFFF).writeReg 2 0x00000001))
      (fun t => (t.readReg 3, t.pc)) =
        some ((0x00000000 : Word), (0x00400004 : Word)) := by decide +kernel
theorem test_sltu_cp5 :
    after (exec (.sltu 3 0 2) (start.writeReg 2 0x00000001))
      (fun t => (t.readReg 3, t.pc)) =
        some ((0x00000001 : Word), (0x00400004 : Word)) := by decide +kernel

theorem test_decode_slti : decodeWord 0x2822FFFF = .ok (.slti 2 1 0xffff) := by decide +kernel
theorem test_slti_cp6 :
    after (exec (.slti 2 1 0xffff) (start.writeReg 1 0xFFFFFFFE))
      (fun t => (t.readReg 2, t.pc)) =
        some ((0x00000001 : Word), (0x00400004 : Word)) := by decide +kernel
theorem test_slti_cp7 :
    after (exec (.slti 2 1 0xffff) (start.writeReg 1 0x00000000))
      (fun t => (t.readReg 2, t.pc)) =
        some ((0x00000000 : Word), (0x00400004 : Word)) := by decide +kernel

theorem test_decode_sltiu : decodeWord 0x2C22FFFF = .ok (.sltiu 2 1 0xffff) := by decide +kernel
theorem test_sltiu_cp8 :
    after (exec (.sltiu 2 1 0xffff) (start.writeReg 1 0x00000005))
      (fun t => (t.readReg 2, t.pc)) =
        some ((0x00000001 : Word), (0x00400004 : Word)) := by decide +kernel
theorem test_sltiu_cp9 :
    after (exec (.sltiu 2 1 0xffff) (start.writeReg 1 0xFFFFFFFF))
      (fun t => (t.readReg 2, t.pc)) =
        some ((0x00000000 : Word), (0x00400004 : Word)) := by decide +kernel

theorem test_decode_bczt : decodeWord 0x45010003 = .ok (.bczt 1 3) := by decide +kernel
theorem test_bczt_br19 :
    after (exec (.bczt 1 3) (start.writeFlag 1 true))
      (fun t => (t.pc)) =
        some ((0x00400010 : Word)) := by decide +kernel
theorem test_bczt_br20 :
    after (exec (.bczt 1 3) (start.writeFlag 1 false))
      (fun t => (t.pc)) =
        some ((0x00400004 : Word)) := by decide +kernel

theorem test_decode_bczf : decodeWord 0x4500FFFE = .ok (.bczf 1 0xfffe) := by decide +kernel
theorem test_bczf_br21 :
    after (exec (.bczf 1 0xfffe) ((start.jump 0x00400010).writeFlag 1 false))
      (fun t => (t.pc)) =
        some ((0x0040000C : Word)) := by decide +kernel
theorem test_bczf_br22 :
    after (exec (.bczf 1 0xfffe) ((start.jump 0x00400010).writeFlag 1 true))
      (fun t => (t.pc)) =
        some ((0x00400014 : Word)) := by decide +kernel

theorem test_decode_beq : decodeWord 0x10220003 = .ok (.beq 1 2 3) := by decide +kernel
theorem test_beq_br1 :
    after (exec (.beq 1 2 3) ((start.writeReg 1 0x00000005).writeReg 2 0x00000005))
      (fun t => (t.pc)) =
        some ((0x00400010 : Word)) := by decide +kernel
theorem test_beq_br2 :
    after (exec (.beq 1 2 3) ((start.writeReg 1 0x00000005).writeReg 2 0x00000006))
      (fun t => (t.pc)) =
        some ((0x00400004 : Word)) := by decide +kernel

theorem test_decode_bgez : decodeWord 0x04210002 = .ok (.bgez 1 2) := by decide +kernel
theorem test_bgez_br6 :
    after (exec (.bgez 1 2) (start.writeReg 1 0x00000000))
      (fun t => (t.pc)) =
        some ((0x0040000C : Word)) := by decide +kernel
theorem test_bgez_br7 :
    after (exec (.bgez 1 2) (start.writeReg 1 0x80000000))
      (fun t => (t.pc)) =
        some ((0x00400004 : Word)) := by decide +kernel

theorem test_decode_bgezal : decodeWord 0x04310002 = .ok (.bgezal 1 2) := by decide +kernel
theorem test_bgezal_br14 :
    after (exec (.bgezal 1 2) (start.writeReg 1 0x00000001))
      (fun t => (t.readReg 31, t.pc)) =
        some ((0x00400004 : Word), (0x0040000C : Word)) := by decide +kernel
theorem test_bgezal_br15 :
    after (exec (.bgezal 1 2) (start.writeReg 1 0xFFFFFFFF))
      (fun t => (t.readReg 31, t.pc)) =
        some ((0x00400004 : Word), (0x00400004 : Word)) := by decide +kernel

theorem test_decode_bgtz : decodeWord 0x1C200002 = .ok (.bgtz 1 2) := by decide +kernel
theorem test_bgtz_br8 :
    after (exec (.bgtz 1 2) (start.writeReg 1 0x00000001))
      (fun t => (t.pc)) =
        some ((0x0040000C : Word)) := by decide +kernel
theorem test_bgtz_br9 :
    after (exec (.bgtz 1 2) (start.writeReg 1 0x00000000))
      (fun t => (t.pc)) =
        some ((0x00400004 : Word)) := by decide +kernel

theorem test_decode_blez : decodeWord 0x18200002 = .ok (.blez 1 2) := by decide +kernel
theorem test_blez_br10 :
    after (exec (.blez 1 2) (start.writeReg 1 0x00000000))
      (fun t => (t.pc)) =
        some ((0x0040000C : Word)) := by decide +kernel
theorem test_blez_br11 :
    after (exec (.blez 1 2) (start.writeReg 1 0x00000001))
      (fun t => (t.pc)) =
        some ((0x00400004 : Word)) := by decide +kernel

theorem test_decode_bltzal : decodeWord 0x04300002 = .ok (.bltzal 1 2) := by decide +kernel
theorem test_bltzal_br17 :
    after (exec (.bltzal 1 2) (start.writeReg 1 0xFFFFFFFF))
      (fun t => (t.readReg 31, t.pc)) =
        some ((0x00400004 : Word), (0x0040000C : Word)) := by decide +kernel
theorem test_bltzal_br18 :
    after (exec (.bltzal 1 2) (start.writeReg 1 0x00000000))
      (fun t => (t.readReg 31, t.pc)) =
        some ((0x00400004 : Word), (0x00400004 : Word)) := by decide +kernel

theorem test_decode_bltz : decodeWord 0x0420FFFF = .ok (.bltz 1 0xffff) := by decide +kernel
theorem test_bltz_br12 :
    after (exec (.bltz 1 0xffff) ((start.jump 0x00400008).writeReg 1 0x80000000))
      (fun t => (t.pc)) =
        some ((0x00400008 : Word)) := by decide +kernel
theorem test_bltz_br13 :
    after (exec (.bltz 1 0xffff) ((start.jump 0x00400008).writeReg 1 0x00000000))
      (fun t => (t.pc)) =
        some ((0x0040000C : Word)) := by decide +kernel

theorem test_decode_bne : decodeWord 0x1422FFFC = .ok (.bne 1 2 0xfffc) := by decide +kernel
theorem test_bne_br4 :
    after (exec (.bne 1 2 0xfffc) (((start.jump 0x00400010).writeReg 1 0x00000001).writeReg 2 0x00000002))
      (fun t => (t.pc)) =
        some ((0x00400004 : Word)) := by decide +kernel
theorem test_bne_br5 :
    after (exec (.bne 1 2 0xfffc) (((start.jump 0x00400010).writeReg 1 0x00000002).writeReg 2 0x00000002))
      (fun t => (t.pc)) =
        some ((0x00400014 : Word)) := by decide +kernel

theorem test_decode_j : decodeWord 0x08100008 = .ok (.j 0x100008) := by decide +kernel
theorem test_j_br25 :
    after (exec (.j 0x100008) start)
      (fun t => (t.pc)) =
        some ((0x00400020 : Word)) := by decide +kernel
theorem test_j_br26 :
    after (exec (.j 0x100008) (start.jump 0x00400FFC))
      (fun t => (t.pc)) =
        some ((0x00400020 : Word)) := by decide +kernel

theorem test_decode_jal : decodeWord 0x0C100008 = .ok (.jal 0x100008) := by decide +kernel
theorem test_jal_br27 :
    after (exec (.jal 0x100008) start)
      (fun t => (t.readReg 31, t.pc)) =
        some ((0x00400004 : Word), (0x00400020 : Word)) := by decide +kernel

theorem test_decode_jalr : decodeWord 0x0080F809 = .ok (.jalr 31 4) := by decide +kernel
theorem test_jalr_br28 :
    after (exec (.jalr 31 4) (start.writeReg 4 0x00400100))
      (fun t => (t.readReg 31, t.pc)) =
        some ((0x00400004 : Word), (0x00400100 : Word)) := by decide +kernel
theorem test_jalr_br29 :
    after (exec (.jalr 5 4) (start.writeReg 4 0x00400100))
      (fun t => (t.readReg 5, t.pc)) =
        some ((0x00400004 : Word), (0x00400100 : Word)) := by decide +kernel

theorem test_decode_jr : decodeWord 0x03E00008 = .ok (.jr 31) := by decide +kernel
theorem test_jr_br32 :
    after (exec (.jr 31) (start.writeReg 31 0x00400004))
      (fun t => (t.pc)) =
        some ((0x00400004 : Word)) := by decide +kernel
theorem test_jr_br33 :
    after (exec (.jr 4) (start.writeReg 4 0x00400102))
      (fun t => (t.pc)) =
        some ((0x00400102 : Word)) := by decide +kernel

theorem test_decode_lb : decodeWord 0x8062FFFC = .ok (.lb 2 3 0xfffc) := by decide +kernel
theorem test_lb_ld1 :
    after (exec (.lb 2 3 0xfffc) ((start.writeReg 3 0x10010004).withBytes 0x10010000 [0x9C]))
      (fun t => (t.readReg 2, t.pc)) =
        some ((0xFFFFFF9C : Word), (0x00400004 : Word)) := by decide +kernel
theorem test_lb_ld2 :
    after (exec (.lb 2 3 0) ((start.writeReg 3 0x10010000).withBytes 0x10010000 [0x7F]))
      (fun t => (t.readReg 2, t.pc)) =
        some ((0x0000007F : Word), (0x00400004 : Word)) := by decide +kernel

theorem test_decode_lbu : decodeWord 0x90620001 = .ok (.lbu 2 3 1) := by decide +kernel
theorem test_lbu_ld3 :
    after (exec (.lbu 2 3 1) ((start.writeReg 3 0x10010000).withBytes 0x10010001 [0x9C]))
      (fun t => (t.readReg 2, t.pc)) =
        some ((0x0000009C : Word), (0x00400004 : Word)) := by decide +kernel

theorem test_decode_lh : decodeWord 0x84620002 = .ok (.lh 2 3 2) := by decide +kernel
theorem test_lh_ld4 :
    after (exec (.lh 2 3 2) ((start.writeReg 3 0x10010000).withBytes 0x10010002 [0xFE, 0xFF]))
      (fun t => (t.readReg 2, t.pc)) =
        some ((0xFFFFFFFE : Word), (0x00400004 : Word)) := by decide +kernel
theorem test_lh_ld8 :
    faultOf (exec (.lh 2 3 1) ((start.writeReg 3 0x10010000).withBytes 0x10010001 [0xFE, 0xFF])) =
      some (.raised (.addressError 0x10010001) 0x00400000) := by decide +kernel

theorem test_decode_lhu : decodeWord 0x94620002 = .ok (.lhu 2 3 2) := by decide +kernel
theorem test_lhu_ld6 :
    after (exec (.lhu 2 3 2) ((start.writeReg 3 0x10010000).withBytes 0x10010002 [0xFE, 0xFF]))
      (fun t => (t.readReg 2, t.pc)) =
        some ((0x0000FFFE : Word), (0x00400004 : Word)) := by decide +kernel
theorem test_lhu_ld7 :
    after (exec (.lhu 2 3 2) ((startBig.writeReg 3 0x10010000).withBytes 0x10010002 [0xFE, 0xFF]))
      (fun t => (t.readReg 2, t.pc)) =
        some ((0x0000FEFF : Word), (0x00400004 : Word)) := by decide +kernel

theorem test_decode_lw : decodeWord 0x8C620008 = .ok (.lw 2 3 8) := by decide +kernel
theorem test_lw_ld9 :
    after (exec (.lw 2 3 8) ((start.writeReg 3 0x10010000).writeBytes (wordCells .little 0x10010008 0xDEADBEEF)))
      (fun t => (t.readReg 2, t.pc)) =
        some ((0xDEADBEEF : Word), (0x00400004 : Word)) := by decide +kernel
theorem test_lw_ld13 :
    faultOf (exec (.lw 2 3 2)
        ((start.writeReg 3 0x10010000).withBytes 0x10010000 [0x11, 0x22, 0x33, 0x44, 0x55, 0x66, 0x77, 0x88])) =
      some (.raised (.addressError 0x10010002) 0x00400000) := by decide +kernel

theorem test_decode_lwcz : decodeWord 0xC4620008 = .ok (.lwcz 1 2 3 8) := by decide +kernel
theorem test_lwcz_ld20 :
    after (exec (.lwcz 1 2 3 8)
        ((start.writeReg 3 0x10010000).writeBytes (wordCells .little 0x10010008 0x3F800000)))
      (fun t => (t.readCop 1 2, t.pc)) =
        some ((0x3F800000 : Word), (0x00400004 : Word)) := by decide +kernel
theorem test_lwcz_ld21 :
    after (exec (.lwcz 1 3 3 8)
        ((start.writeReg 3 0x10010000).writeBytes (wordCells .little 0x10010008 0x3F800000)))
      (fun t => (t.readCop 1 3, t.pc)) =
        some ((0x3F800000 : Word), (0x00400004 : Word)) := by decide +kernel

theorem test_decode_lwl : decodeWord 0x88620003 = .ok (.lwl 2 3 3) := by decide +kernel
theorem test_lwl_ld23 :
    after (exec (.lwl 2 3 3)
        (((start.writeReg 3 0x10010000).writeReg 2 0xAABBCCDD).withBytes 0x10010000 [0x11, 0x22, 0x33, 0x44]))
      (fun t => (t.readReg 2, t.pc)) =
        some ((0x44332211 : Word), (0x00400004 : Word)) := by decide +kernel
theorem test_lwl_ld24 :
    after (exec (.lwl 2 3 3)
        (((startBig.writeReg 3 0x10010000).writeReg 2 0xAABBCCDD).withBytes 0x10010000 [0x11, 0x22, 0x33, 0x44]))
      (fun t => (t.readReg 2, t.pc)) =
        some ((0x44BBCCDD : Word), (0x00400004 : Word)) := by decide +kernel

theorem test_decode_lwr : decodeWord 0x98620000 = .ok (.lwr 2 3 0) := by decide +kernel
theorem test_lwr_ld31 :
    after (exec (.lwr 2 3 0)
        (((start.writeReg 3 0x10010000).writeReg 2 0xAABBCCDD).withBytes 0x10010000 [0x11, 0x22, 0x33, 0x44]))
      (fun t => (t.readReg 2, t.pc)) =
        some ((0x44332211 : Word), (0x00400004 : Word)) := by decide +kernel
theorem test_lwr_ld32 :
    after (exec (.lwr 2 3 0)
        (((startBig.writeReg 3 0x10010000).writeReg 2 0xAABBCCDD).withBytes 0x10010000 [0x11, 0x22, 0x33, 0x44]))
      (fun t => (t.readReg 2, t.pc)) =
        some ((0xAABBCC11 : Word), (0x00400004 : Word)) := by decide +kernel

theorem test_decode_sb : decodeWord 0xA0620000 = .ok (.sb 2 3 0) := by decide +kernel
theorem test_sb_st1 :
    after (exec (.sb 2 3 0) ((start.writeReg 2 0x12345678).writeReg 3 0x10010000))
      (fun t => (t.byteAt 0x10010000, t.pc)) =
        some ((0x78 : Byte), (0x00400004 : Word)) := by decide +kernel
theorem test_sb_st2 :
    after (exec (.sb 0 3 3) (start.writeReg 3 0x10010000))
      (fun t => (t.byteAt 0x10010003, t.pc)) =
        some ((0x00 : Byte), (0x00400004 : Word)) := by decide +kernel

theorem test_decode_sh : decodeWord 0xA4620002 = .ok (.sh 2 3 2) := by decide +kernel
theorem test_sh_st3 :
    after (exec (.sh 2 3 2) ((start.writeReg 2 0x12345678).writeReg 3 0x10010000))
      (fun t => (t.bytesAt 0x10010002 2, t.pc)) =
        some (([0x78, 0x56] : List Byte), (0x00400004 : Word)) := by decide +kernel
theorem test_sh_st5 :
    faultOf (exec (.sh 2 3 1) ((start.writeReg 2 0x12345678).writeReg 3 0x10010000)) =
      some (.raised (.addressError 0x10010001) 0x00400000) := by decide +kernel

theorem test_decode_sw : decodeWord 0xAC620008 = .ok (.sw 2 3 8) := by decide +kernel
theorem test_sw_st6 :
    after (exec (.sw 2 3 8) ((start.writeReg 2 0x12345678).writeReg 3 0x10010000))
      (fun t => (t.bytesAt 0x10010008 4, t.pc)) =
        some (([0x78, 0x56, 0x34, 0x12] : List Byte), (0x00400004 : Word)) := by decide +kernel
theorem test_sw_st8 :
    faultOf (exec (.sw 2 3 6) ((start.writeReg 2 0x12345678).writeReg 3 0x10010000)) =
      some (.raised (.addressError 0x10010006) 0x00400000) := by decide +kernel

theorem test_decode_swcz : decodeWord 0xE4620008 = .ok (.swcz 1 2 3 8) := by decide +kernel
theorem test_swcz_st11 :
    after (exec (.swcz 1 2 3 8) ((start.writeCop 1 2 0x40490FDB).writeReg 3 0x10010000))
      (fun t => (t.bytesAt 0x10010008 4, t.pc)) =
        some (([0xDB, 0x0F, 0x49, 0x40] : List Byte), (0x00400004 : Word)) := by decide +kernel

theorem test_decode_swl : decodeWord 0xA8620003 = .ok (.swl 2 3 3) := by decide +kernel
theorem test_swl_st12 :
    after (exec (.swl 2 3 3)
        (((start.writeReg 2 0xAABBCCDD).writeReg 3 0x10010000).withBytes 0x10010000 [0x11, 0x22, 0x33, 0x44]))
      (fun t => (t.bytesAt 0x10010000 4, t.pc)) =
        some (([0xDD, 0xCC, 0xBB, 0xAA] : List Byte), (0x00400004 : Word)) := by decide +kernel
theorem test_swl_st13 :
    after (exec (.swl 2 3 3)
        (((startBig.writeReg 2 0xAABBCCDD).writeReg 3 0x10010000).withBytes 0x10010000 [0x11, 0x22, 0x33, 0x44]))
      (fun t => (t.byteAt 0x10010003, t.pc)) =
        some ((0xAA : Byte), (0x00400004 : Word)) := by decide +kernel

theorem test_decode_swr : decodeWord 0xB8620000 = .ok (.swr 2 3 0) := by decide +kernel
theorem test_swr_st18 :
    after (exec (.swr 2 3 0)
        (((start.writeReg 2 0xAABBCCDD).writeReg 3 0x10010000).withBytes 0x10010000 [0x11, 0x22, 0x33, 0x44]))
      (fun t => (t.bytesAt 0x10010000 4, t.pc)) =
        some (([0xDD, 0xCC, 0xBB, 0xAA] : List Byte), (0x00400004 : Word)) := by decide +kernel
theorem test_swr_st19 :
    after (exec (.swr 2 3 0)
        (((startBig.writeReg 2 0xAABBCCDD).writeReg 3 0x10010000).withBytes 0x10010000 [0x11, 0x22, 0x33, 0x44]))
      (fun t => (t.byteAt 0x10010000, t.pc)) =
        some ((0xDD : Byte), (0x00400004 : Word)) := by decide +kernel

theorem test_decode_mfhi : decodeWord 0x00001010 = .ok (.mfhi 2) := by decide +kernel
theorem test_mfhi_mv3 :
    after (exec (.mfhi 2) (start.writeHiLo 0x00000001 0x00000000))
      (fun t => (t.readReg 2, t.pc)) =
        some ((0x00000001 : Word), (0x00400004 : Word)) := by decide +kernel

theorem test_decode_mflo : decodeWord 0x00001012 = .ok (.mflo 2) := by decide +kernel
theorem test_mflo_mv4 :
    after (exec (.mflo 2) (start.writeHiLo 0x00000002 0x0000000E))
      (fun t => (t.readReg 2, t.pc)) =
        some ((0x0000000E : Word), (0x00400004 : Word)) := by decide +kernel

theorem test_decode_mthi : decodeWord 0x00400011 = .ok (.mthi 2) := by decide +kernel
theorem test_mthi_mv6 :
    after (exec (.mthi 2) (start.writeReg 2 0x12345678))
      (fun t => (t.hi, t.pc)) =
        some ((0x12345678 : Word), (0x00400004 : Word)) := by decide +kernel

theorem test_decode_mtlo : decodeWord 0x00400013 = .ok (.mtlo 2) := by decide +kernel
theorem test_mtlo_mv7 :
    after (exec (.mtlo 2) (start.writeReg 2 0x00000009))
      (fun t => (t.lo, t.pc)) =
        some ((0x00000009 : Word), (0x00400004 : Word)) := by decide +kernel

theorem test_decode_mfcz : decodeWord 0x44022000 = .ok (.mfcz 1 2 4) := by decide +kernel
theorem test_mfcz_mv8 :
    after (exec (.mfcz 1 2 4) (start.writeCop 1 4 0x3F800000))
      (fun t => (t.readReg 2, t.pc)) =
        some ((0x3F800000 : Word), (0x00400004 : Word)) := by decide +kernel
theorem test_mfcz_mv9 :
    after (exec (.mfcz 1 2 5) (start.writeCop 1 5 0x40000000))
      (fun t => (t.readReg 2, t.pc)) =
        some ((0x40000000 : Word), (0x00400004 : Word)) := by decide +kernel

theorem test_decode_mtcz : decodeWord 0x44822000 = .ok (.mtcz 1 2 4) := by decide +kernel
theorem test_mtcz_mv10 :
    after (exec (.mtcz 1 2 4) (start.writeReg 2 0x40490FDB))
      (fun t => (t.readCop 1 4, t.pc)) =
        some ((0x40490FDB : Word), (0x00400004 : Word)) := by decide +kernel
theorem test_mtcz_mv11 :
    after (exec (.mtcz 1 0 4) start)
      (fun t => (t.readCop 1 4, t.pc)) =
        some ((0x00000000 : Word), (0x00400004 : Word)) := by decide +kernel

theorem test_decode_absD : decodeWord 0x46202085 = .ok (.absD 2 4) := by decide +kernel
theorem test_absD_fp28 :
    after (exec (.absD 2 4) (start.writeDouble 4 0xBFF0000000000000))
      (fun t => (t.readCop 1 2, t.readCop 1 3, t.pc)) =
        some ((0x00000000 : Word), (0x3FF00000 : Word), (0x00400004 : Word)) := by decide +kernel

theorem test_decode_absS : decodeWord 0x46002085 = .ok (.absS 2 4) := by decide +kernel
theorem test_absS_fp25 :
    after (exec (.absS 2 4) (start.writeCop 1 4 0xBFC00000))
      (fun t => (t.readCop 1 2, t.pc)) =
        some ((0x3FC00000 : Word), (0x00400004 : Word)) := by decide +kernel
theorem test_absS_fp26 :
    after (exec (.absS 2 4) (start.writeCop 1 4 0x80000000))
      (fun t => (t.readCop 1 2, t.pc)) =
        some ((0x00000000 : Word), (0x00400004 : Word)) := by decide +kernel

theorem test_decode_addD : decodeWord 0x46262080 = .ok (.addD 2 4 6) := by decide +kernel
theorem test_addD_fp9 :
    after (exec (.addD 2 4 6) ((start.writeDouble 4 0x3FF0000000000000).writeDouble 6 0x4000000000000000))
      (fun t => (t.readCop 1 2, t.readCop 1 3, t.pc)) =
        some ((0x00000000 : Word), (0x40080000 : Word), (0x00400004 : Word)) := by decide +kernel

theorem test_decode_addS : decodeWord 0x46062080 = .ok (.addS 2 4 6) := by decide +kernel
theorem test_addS_fp1 :
    after (exec (.addS 2 4 6) ((start.writeCop 1 4 0x3F800000).writeCop 1 6 0x40000000))
      (fun t => (t.readCop 1 2, t.pc)) =
        some ((0x40400000 : Word), (0x00400004 : Word)) := by decide +kernel
theorem test_addS_fp3 :
    after (exec (.addS 2 4 6) ((start.writeCop 1 4 0x7F7FFFFF).writeCop 1 6 0x7F7FFFFF))
      (fun t => (t.readCop 1 2, t.pc)) =
        some ((0x7F800000 : Word), (0x00400004 : Word)) := by decide +kernel

theorem test_decode_cEqD : decodeWord 0x46262032 = .ok (.cEqD 4 6) := by decide +kernel
theorem test_cEqD_fp38 :
    after (exec (.cEqD 4 6) ((start.writeDouble 4 0x3FF0000000000000).writeDouble 6 0x3FF0000000000000))
      (fun t => (t.readFlag 1, t.pc)) =
        some (true, (0x00400004 : Word)) := by decide +kernel

theorem test_decode_cEqS : decodeWord 0x46062032 = .ok (.cEqS 4 6) := by decide +kernel
theorem test_cEqS_fp35 :
    after (exec (.cEqS 4 6) ((start.writeCop 1 4 0x3F800000).writeCop 1 6 0x40000000))
      (fun t => (t.readFlag 1, t.pc)) =
        some (false, (0x00400004 : Word)) := by decide +kernel
theorem test_cEqS_fp36 :
    after (exec (.cEqS 4 6) ((start.writeCop 1 4 0x00000000).writeCop 1 6 0x80000000))
      (fun t => (t.readFlag 1, t.pc)) =
        some (true, (0x00400004 : Word)) := by decide +kernel

theorem test_decode_cLeD : decodeWord 0x4626203E = .ok (.cLeD 4 6) := by decide +kernel
theorem test_cLeD_fp47 :
    after (exec (.cLeD 4 6) ((start.writeDouble 4 0x3FF0000000000000).writeDouble 6 0x3FF0000000000000))
      (fun t => (t.readFlag 1, t.pc)) =
        some (true, (0x00400004 : Word)) := by decide +kernel
theorem test_cLeD_fp48 :
    after (exec (.cLeD 4 6) ((start.writeDouble 4 0xFFF0000000000000).writeDouble 6 0x7FF0000000000000))
      (fun t => (t.readFlag 1, t.pc)) =
        some (true, (0x00400004 : Word)) := by decide +kernel

theorem test_decode_cLeS : decodeWord 0x4606203E = .ok (.cLeS 4 6) := by decide +kernel
theorem test_cLeS_fp44 :
    after (exec (.cLeS 4 6) ((start.writeCop 1 4 0x40000000).writeCop 1 6 0x3F800000))
      (fun t => (t.readFlag 1, t.pc)) =
        some (false, (0x00400004 : Word)) := by decide +kernel
theorem test_cLeS_fp45 :
    after (exec (.cLeS 4 6) ((start.writeCop 1 4 0x3F800000).writeCop 1 6 0x3F800000))
      (fun t => (t.readFlag 1, t.pc)) =
        some (true, (0x00400004 : Word)) := by decide +kernel

theorem test_decode_cLtD : decodeWord 0x4626203C = .ok (.cLtD 4 6) := by decide +kernel
theorem test_cLtD_fp43 :
    after (exec (.cLtD 4 6) ((start.writeDouble 4 0x3FF0000000000000).writeDouble 6 0x4000000000000000))
      (fun t => (t.readFlag 1, t.pc)) =
        some (true, (0x00400004 : Word)) := by decide +kernel

theorem test_decode_cLtS : decodeWord 0x4606203C = .ok (.cLtS 4 6) := by decide +kernel
theorem test_cLtS_fp39 :
    after (exec (.cLtS 4 6) ((start.writeCop 1 4 0xBFC00000).writeCop 1 6 0x3F800000))
      (fun t => (t.readFlag 1, t.pc)) =
        some (true, (0x00400004 : Word)) := by decide +kernel
theorem test_cLtS_fp40 :
    after (exec (.cLtS 4 6) ((start.writeCop 1 4 0x3F800000).writeCop 1 6 0x3F800000))
      (fun t => (t.readFlag 1, t.pc)) =
        some (false, (0x00400004 : Word)) := by decide +kernel

theorem test_decode_cvtDS : decodeWord 0x460020A1 = .ok (.cvtDS 2 4) := by decide +kernel
theorem test_cvtDS_fp49 :
    after (exec (.cvtDS 2 4) (start.writeCop 1 4 0x3F800000))
      (fun t => (t.readCop 1 2, t.readCop 1 3, t.pc)) =
        some ((0x00000000 : Word), (0x3FF00000 : Word), (0x00400004 : Word)) := by decide +kernel
theorem test_cvtDS_fp50 :
    after (exec (.cvtDS 2 4) (start.writeCop 1 4 0x00000001))
      (fun t => (t.readCop 1 2, t.readCop 1 3, t.pc)) =
        some ((0x00000000 : Word), (0x36A00000 : Word), (0x00400004 : Word)) := by decide +kernel

theorem test_decode_cvtDW : decodeWord 0x468020A1 = .ok (.cvtDW 2 4) := by decide +kernel
theorem test_cvtDW_fp52 :
    after (exec (.cvtDW 2 4) (start.writeCop 1 4 0xFFFFFFFF))
      (fun t => (t.readCop 1 2, t.readCop 1 3, t.pc)) =
        some ((0x00000000 : Word), (0xBFF00000 : Word), (0x00400004 : Word)) := by decide +kernel
theorem test_cvtDW_fp53 :
    after (exec (.cvtDW 2 4) (start.writeCop 1 4 0x80000000))
      (fun t => (t.readCop 1 2, t.readCop 1 3, t.pc)) =
        some ((0x00000000 : Word), (0xC1E00000 : Word), (0x00400004 : Word)) := by decide +kernel

theorem test_decode_cvtSD : decodeWord 0x462020A0 = .ok (.cvtSD 2 4) := by decide +kernel
theorem test_cvtSD_fp54 :
    after (exec (.cvtSD 2 4) (start.writeDouble 4 0x3FE0000000000000))
      (fun t => (t.readCop 1 2, t.pc)) =
        some ((0x3F000000 : Word), (0x00400004 : Word)) := by decide +kernel
theorem test_cvtSD_fp55 :
    after (exec (.cvtSD 2 4) (start.writeDouble 4 0x47F0000000000000))
      (fun t => (t.readCop 1 2, t.pc)) =
        some ((0x7F800000 : Word), (0x00400004 : Word)) := by decide +kernel

theorem test_decode_cvtSW : decodeWord 0x468020A0 = .ok (.cvtSW 2 4) := by decide +kernel
theorem test_cvtSW_fp57 :
    after (exec (.cvtSW 2 4) (start.writeCop 1 4 0x00000007))
      (fun t => (t.readCop 1 2, t.pc)) =
        some ((0x40E00000 : Word), (0x00400004 : Word)) := by decide +kernel
theorem test_cvtSW_fp58 :
    after (exec (.cvtSW 2 4) (start.writeCop 1 4 0x7FFFFFFF))
      (fun t => (t.readCop 1 2, t.pc)) =
        some ((0x4F000000 : Word), (0x00400004 : Word)) := by decide +kernel

theorem test_decode_cvtWD : decodeWord 0x462020A4 = .ok (.cvtWD 2 4) := by decide +kernel
theorem test_cvtWD_fp77 :
    after (exec (.cvtWD 2 4) (start.writeDouble 4 0x4000000000000000))
      (fun t => (t.readCop 1 2, t.pc)) =
        some ((0x00000002 : Word), (0x00400004 : Word)) := by decide +kernel

theorem test_decode_cvtWS : decodeWord 0x460020A4 = .ok (.cvtWS 2 4) := by decide +kernel
theorem test_cvtWS_fp72 :
    after (exec (.cvtWS 2 4) (start.writeCop 1 4 0x40E00000))
      (fun t => (t.readCop 1 2, t.pc)) =
        some ((0x00000007 : Word), (0x00400004 : Word)) := by decide +kernel
theorem test_cvtWS_fp74 :
    after (exec (.cvtWS 2 4) (start.writeCop 1 4 0xCF000000))
      (fun t => (t.readCop 1 2, t.pc)) =
        some ((0x80000000 : Word), (0x00400004 : Word)) := by decide +kernel

theorem test_decode_divD : decodeWord 0x46262083 = .ok (.divD 2 4 6) := by decide +kernel
theorem test_divD_fp23 :
    after (exec (.divD 2 4 6) ((start.writeDouble 4 0x3FF0000000000000).writeDouble 6 0x4000000000000000))
      (fun t => (t.readCop 1 2, t.readCop 1 3, t.pc)) =
        some ((0x00000000 : Word), (0x3FE00000 : Word), (0x00400004 : Word)) := by decide +kernel
theorem test_divD_fp24 :
    after (exec (.divD 2 4 6) ((start.writeDouble 4 0x3FF0000000000000).writeDouble 6 0x4008000000000000))
      (fun t => (t.readCop 1 2, t.readCop 1 3, t.pc)) =
        some ((0x55555555 : Word), (0x3FD55555 : Word), (0x00400004 : Word)) := by decide +kernel

theorem test_decode_divS : decodeWord 0x46062083 = .ok (.divS 2 4 6) := by decide +kernel
theorem test_divS_fp17 :
    after (exec (.divS 2 4 6) ((start.writeCop 1 4 0x40E00000).writeCop 1 6 0x40000000))
      (fun t => (t.readCop 1 2, t.pc)) =
        some ((0x40600000 : Word), (0x00400004 : Word)) := by decide +kernel
theorem test_divS_fp18 :
    after (exec (.divS 2 4 6) ((start.writeCop 1 4 0x3F800000).writeCop 1 6 0x00000000))
      (fun t => (t.readCop 1 2, t.pc)) =
        some ((0x7F800000 : Word), (0x00400004 : Word)) := by decide +kernel

theorem test_decode_movD : decodeWord 0x46202086 = .ok (.movD 2 4) := by decide +kernel
theorem test_movD_fp33 :
    after (exec (.movD 2 4) (start.writeDouble 4 0x4008000000000000))
      (fun t => (t.readCop 1 2, t.readCop 1 3, t.pc)) =
        some ((0x00000000 : Word), (0x40080000 : Word), (0x00400004 : Word)) := by decide +kernel

theorem test_decode_movS : decodeWord 0x46002086 = .ok (.movS 2 4) := by decide +kernel
theorem test_movS_fp32 :
    after (exec (.movS 2 4) (start.writeCop 1 4 0x7FC00001))
      (fun t => (t.readCop 1 2, t.pc)) =
        some ((0x7FC00001 : Word), (0x00400004 : Word)) := by decide +kernel

theorem test_decode_mulD : decodeWord 0x46262082 = .ok (.mulD 2 4 6) := by decide +kernel
theorem test_mulD_fp16 :
    after (exec (.mulD 2 4 6) ((start.writeDouble 4 0x4000000000000000).writeDouble 6 0x4008000000000000))
      (fun t => (t.readCop 1 2, t.readCop 1 3, t.pc)) =
        some ((0x00000000 : Word), (0x40180000 : Word), (0x00400004 : Word)) := by decide +kernel

theorem test_decode_mulS : decodeWord 0x46062082 = .ok (.mulS 2 4 6) := by decide +kernel
theorem test_mulS_fp13 :
    after (exec (.mulS 2 4 6) ((start.writeCop 1 4 0x40000000).writeCop 1 6 0x40400000))
      (fun t => (t.readCop 1 2, t.pc)) =
        some ((0x40C00000 : Word), (0x00400004 : Word)) := by decide +kernel
theorem test_mulS_fp15 :
    after (exec (.mulS 2 4 6) ((start.writeCop 1 4 0x80000000).writeCop 1 6 0x40000000))
      (fun t => (t.readCop 1 2, t.pc)) =
        some ((0x80000000 : Word), (0x00400004 : Word)) := by decide +kernel

theorem test_decode_negD : decodeWord 0x46202087 = .ok (.negD 2 4) := by decide +kernel
theorem test_negD_fp31 :
    after (exec (.negD 2 4) (start.writeDouble 4 0x3FF0000000000000))
      (fun t => (t.readCop 1 2, t.readCop 1 3, t.pc)) =
        some ((0x00000000 : Word), (0xBFF00000 : Word), (0x00400004 : Word)) := by decide +kernel

theorem test_decode_negS : decodeWord 0x46002087 = .ok (.negS 2 4) := by decide +kernel
theorem test_negS_fp29 :
    after (exec (.negS 2 4) (start.writeCop 1 4 0x3F800000))
      (fun t => (t.readCop 1 2, t.pc)) =
        some ((0xBF800000 : Word), (0x00400004 : Word)) := by decide +kernel
theorem test_negS_fp30 :
    after (exec (.negS 2 4) (start.writeCop 1 4 0x00000000))
      (fun t => (t.readCop 1 2, t.pc)) =
        some ((0x80000000 : Word), (0x00400004 : Word)) := by decide +kernel

theorem test_decode_subD : decodeWord 0x46262081 = .ok (.subD 2 4 6) := by decide +kernel
theorem test_subD_fp12 :
    after (exec (.subD 2 4 6) ((start.writeDouble 4 0x4008000000000000).writeDouble 6 0x3FF0000000000000))
      (fun t => (t.readCop 1 2, t.readCop 1 3, t.pc)) =
        some ((0x00000000 : Word), (0x40000000 : Word), (0x00400004 : Word)) := by decide +kernel

theorem test_decode_subS : decodeWord 0x46062081 = .ok (.subS 2 4 6) := by decide +kernel
theorem test_subS_fp10 :
    after (exec (.subS 2 4 6) ((start.writeCop 1 4 0x40600000).writeCop 1 6 0x3F800000))
      (fun t => (t.readCop 1 2, t.pc)) =
        some ((0x40200000 : Word), (0x00400004 : Word)) := by decide +kernel
theorem test_subS_fp11 :
    after (exec (.subS 2 4 4) (start.writeCop 1 4 0x40600000))
      (fun t => (t.readCop 1 2, t.pc)) =
        some ((0x00000000 : Word), (0x00400004 : Word)) := by decide +kernel

theorem test_decode_rfe : decodeWord 0x46000020 = .ok (.rfe) := by decide +kernel

theorem test_decode_syscall : decodeWord 0x0000000C = .ok (.syscall) := by decide +kernel
theorem test_syscall_sy1 :
    after (exec (.syscall) ((start.writeReg 2 0x00000001).writeReg 4 0x0000002A))
      (fun t => (t.out, t.pc)) =
        some (([(.printInt (BitVec.ofInt 32 (42)))] : List OutputEvent), (0x00400004 : Word)) := by decide +kernel
theorem test_syscall_sy7 :
    faultOf (exec (.syscall)
        (((start.writeReg 2 0x00000004).writeReg 4 0x10010FFE).withBytes 0x10010ffe [0x41, 0x42])) =
      some (.raised (.busError 0x10011000) 0x00400000) := by decide +kernel

theorem test_decode_brk : decodeWord 0x000001CD = .ok (.brk 7) := by decide +kernel
theorem test_brk_sy27 :
    faultOf (exec (.brk 7) start) =
      some (.raised (.brk 7) 0x00400000) := by decide +kernel

theorem test_decode_nop : decodeWord 0x00000000 = .ok (.nop) := by decide +kernel
theorem test_nop_sy31 :
    after (exec (.nop) start)
      (fun t => (t.pc)) =
        some ((0x00400004 : Word)) := by decide +kernel

theorem test_rfe : after (exec .rfe (start.jump 0x00400010)) (fun t => t.pc) = some 0x00400014 := by decide +kernel
theorem test_rfe_refused :
    refusalOf (exec .rfe { start with cfg := { resetConfig with statusRestore := .notSupplied } }) =
      some .statusRestoreNotSupplied := by decide +kernel

/-! ## Well-formedness refuses the ill-formed -/

theorem test_wellFormed_refuses_nop_as_sll : Instr.wellFormed (.sll 0 0 0 0) = false := by decide
theorem test_wellFormed_admits_sll : Instr.wellFormed (.sll 0 0 0 1) = true ∧ Instr.wellFormed .nop = true := by decide
theorem test_constant_below_range : constantInRange (-2147483649) = false := by decide
theorem test_constant_above_range : constantInRange 4294967296 = false := by decide
theorem test_constant_ends : constantInRange (-2147483648) = true ∧ constantInRange 4294967295 = true := by decide
theorem test_src2_refused : Src2.wellFormed (.const 4294967296) = false ∧ Src2.wellFormed (.reg 31) = true := by decide
theorem test_address_refused :
    Address.wellFormed (.absolute (-2147483649)) = false ∧ Address.wellFormed (.indexed 4294967296 2) = false := by
  decide
theorem test_pseudo_src2_refused : Pseudo.wellFormed (.mulDiv .mul 2 3 (.const 4294967296)) = false := by decide
theorem test_pseudo_constant_refused : Pseudo.wellFormed (.li 2 (-2147483649)) = false := by decide
theorem test_pseudo_address_refused : Pseudo.wellFormed (.ulw 2 (.absolute 4294967296)) = false := by decide
theorem test_statement_without_words_refused : Statement.wellFormed (.pseudo 0 (.b 0x00400000)) = false := by decide
theorem test_statement_instruction_refused : Statement.wellFormed (.machine (.sll 0 0 0 0)) = false := by decide

/-! ## Pseudoinstructions and the assembler -/

theorem test_li_general : after (execPseudo 2 (.li 2 0x12345678) start) (fun t => (t.readReg 2, t.pc)) =
    some (0x12345678, 0x00400008) := by decide
theorem test_rol : after (execPseudo 3 (.rol 2 3 (.const 4)) (start.writeReg 3 0x80000001)) (fun t => t.readReg 2) =
    some 0x00000018 := by decide
theorem test_mulou_overflow : faultOf (execPseudo 4 (.mulDiv .mulou 2 3 (.reg 4))
    ((start.writeReg 3 0x00010000).writeReg 4 0x00010000)) = some (.raised .overflow 0x00400000) := by decide
theorem test_rem_sign : after (execPseudo 4 (.mulDiv .rem 2 3 (.const 2)) (start.writeReg 3 0xFFFFFFF9))
    (fun t => t.readReg 2) = some 0xFFFFFFFF := by decide
theorem test_pair_register_31_refused :
    refusalOf (execPseudo 2 (.ld 31 (.absolute 0x10010000)) start) = some .pairRegister31 := by decide
theorem test_constant_refused : refusalOf (execPseudo 2 (.li 2 4294967296) start) =
    some (.constantOutOfRange 4294967296) := by decide
theorem test_ulw_unaligned : after (execPseudo 4 (.ulw 2 (.absolute 0x10010001))
    (start.withBytes 0x10010001 [0x44, 0x33, 0x22, 0x11])) (fun t => t.readReg 2) = some 0x11223344 := by decide
theorem test_assembleAlu_immediate : assembleAlu .add 2 3 (.const (-1)) 3 = .machine (.addi 2 3 0xFFFF) := by decide
theorem test_assembleAlu_out_of_range :
    assembleAlu .add 2 3 (.const 4294967301) 3 = .pseudo 3 (.generalAlu .add 2 3 4294967301) := by decide
theorem test_assembleLoad_out_of_range : refusalOf (execStatement (assembleLoad .word 2 (.indexed 4294967300 3) 3) start) =
    some (.constantOutOfRange 4294967300) := by decide +kernel
theorem test_assembleLoad_absolute :
    assembleLoad .word 2 (.absolute 4) 2 = .pseudo 2 (.generalLoad .word 2 (.absolute 4)) := by decide
theorem test_assembleLoad_displacement : assembleLoad .word 2 (.indexed (-4) 3) 2 = .machine (.lw 2 3 0xFFFC) := by decide
theorem test_assembleLui : assembleLui 2 0x12345678 = .ok (.machine (.lui 2 0x5678)) := rfl
theorem test_assembleAlu_wide : assembleAlu .and 2 3 (.const (-1)) 3 = .pseudo 3 (.generalAlu .and 2 3 (-1)) := by decide

/-! ## Unaligned stores at the edge of the map (R57, R407, log 39) -/

/-- A map in which one byte of text lies before a hole, and a byte of data before a byte of text. -/
def startEdges : State :=
  { State.reset with
    cfg := { resetConfig with
      memmap := [⟨0x00400000, 0x1001, .text⟩, ⟨0x10010000, 0x1001, .data⟩, ⟨0x10011001, 1, .text⟩] } }

theorem test_ush_text_before_hole :
    refusalOf (execPseudo 2 (.ush 4 (.absolute 0x00401000)) startEdges) = some (.storeToText 0x00401000) := by
  decide +kernel
theorem test_usw_first_word_decides :
    refusalOf (execPseudo 2 (.usw 4 (.absolute 0x00400FFE)) startEdges) = some (.storeToText 0x00400FFE) := by
  decide +kernel
theorem test_usw_hole_within_word :
    faultOf (execPseudo 2 (.usw 4 (.absolute 0x10011000)) startEdges) =
      some (.raised (.busError 0x10011000) 0x00400000) := by decide +kernel
theorem test_usw_st32 :
    faultOf (execPseudo 2 (.usw 4 (.absolute 0x10010FFD)) start) =
      some (.raised (.busError 0x10010FFD) 0x00400000) := by decide +kernel
theorem test_sd_second_word :
    faultOf (execPseudo 2 (.sd 4 (.absolute 0x10010FFC)) start) =
      some (.raised (.busError 0x10011000) 0x00400000) := by decide +kernel

/-- A map with text at both ends of the address space. -/
def startAround : State :=
  { State.reset with cfg := { resetConfig with memmap := [⟨0xFFFFFFFC, 4, .text⟩, ⟨0, 4, .text⟩] } }

theorem test_sd_around_zero :
    refusalOf (execPseudo 2 (.sd 4 (.absolute 0xFFFFFFFC)) startAround) = some (.storeToText 0xFFFFFFFC) := by
  decide +kernel

/-! ## Programs of statements -/

/-- A program of one statement, which divides by zero. -/
def dividing : List (Word × Statement) := [(0x00400000, .pseudo 4 (.mulDiv .div 2 3 (.const 0)))]

theorem test_statement_divides_by_zero :
    faultOf (statementStep dividing start) = some (.raised .divideByZero 0x00400000) := by decide +kernel
theorem test_statement_is_fetched : refusalOf (statementStep [(0x10010000, .machine .nop)] (start.jump 0x10010000)) =
    some (.fetchFromData 0x10010000) := by decide +kernel

/-! ## The address map and the end of a run -/

theorem test_fetch_from_data : refusalOf (step (start.jump 0x10010000)) = some (.fetchFromData 0x10010000) := by decide
theorem test_fetch_unmapped :
    faultOf (step (start.jump 0x00000000)) = some (.raised (.busError 0) 0x00000000) := by decide
theorem test_fetch_misaligned :
    faultOf (step (start.jump 0x00400002)) = some (.raised (.addressError 0x00400002) 0x00400002) := by decide
theorem test_store_to_text :
    refusalOf (exec (.sw 2 3 0) (start.writeReg 3 0x00400000)) = some (.storeToText 0x00400000) := by decide
theorem test_step_after_exit : faultOf (step { start with ended := true }) = some .runEnded := by decide
theorem test_first_step : after (step (start.withFetchWord 32 0x2022FFFF)) (fun t => (t.readReg 2, t.pc)) =
    some (0xFFFFFFFF, 0x00400004) := by decide
theorem test_first_step_big : after (step (startBig.withFetchWord 32 0x2022FFFF)) (fun t => (t.readReg 2, t.pc)) =
    some (0xFFFFFFFF, 0x00400004) := by decide

/-! ## Witnesses: states and operands that meet the hypotheses of the statements -/

/-- The start state with other parameters. -/
def startWith (f : Config → Config) : State := { State.reset with cfg := f resetConfig }

/-- The start state where `FP` is the host's. -/
def startHostFp : State := startWith (fun c => { c with fp := .hostDefined })

/-- The start state about to run a word. -/
def running (w : Nat) : State := start.withFetchWord 32 w

theorem witness_DecodeOfEncode : Instr.wellFormed (.add 3 1 2) = true ∧ Instr.wellFormed (.sll 0 0 0 1) = true := by
  decide +kernel

theorem witness_EncodeOfDecode : decodeWord 0x00000000#32 = .ok .nop ∧ decodeWord 0xE8000000#32 = .ok (.swcz 2 0 0 0) :=
  by decide +kernel

theorem witness_DecoderFollowsOpcodeTable :
    decodeWord 0x00221820#32 = .ok (.add 3 1 2) ∧ (∃ r ∈ opcodeTable, r.accepts 0x00221820#32 = true) ∧
      (∀ r ∈ opcodeTable, r.accepts 0xFFFFFFFF#32 = false) ∧
      ∃ r ∈ opcodeTable, ∃ r' ∈ opcodeTable, r.accepts 0#32 = true ∧ r'.accepts 0#32 = true ∧ r ≠ r' := by decide +kernel

theorem witness_ReservedWordsRaise_fetched :
    fetchable (running 0xFC000000) ∧ ∀ r ∈ opcodeTable, r.accepts (running 0xFC000000).fetchWord = false :=
  ⟨fetchableBy (by decide +kernel), by decide +kernel⟩

theorem witness_ReservedWordsRaise_shapes :
    reservedShape 0x00221860#32 ∧ reservedShape 0x3C220001#32 ∧ reservedShape 0x00220818#32 ∧
      reservedShape 0x46000004#32 ∧ reservedShape 0x47E0003F#32 :=
  ⟨.inl (by decide), .inr (.inl (by decide)), .inr (.inr (.inl (by decide))), .inr (.inr (.inr (by decide))),
    .inr (.inr (.inr (by decide)))⟩

theorem witness_StepRunsDecoded :
    let s := running 0x00221820
    fetchable s ∧ decodeBytes s.cfg.endian
      [s.byteAt s.pc, s.byteAt (s.pc + 1#32), s.byteAt (s.pc + 2#32), s.byteAt (s.pc + 3#32)] = .ok (.add 3 1 2, []) :=
  ⟨fetchableBy (by decide +kernel), by decide +kernel⟩

theorem witness_StepRunsDecoded_last_word_big :
    let s := (startBig.jump 0x00400FFC).withFetchWord 32 0x0000000C
    fetchable s ∧ decodeBytes s.cfg.endian
      [s.byteAt s.pc, s.byteAt (s.pc + 1#32), s.byteAt (s.pc + 2#32), s.byteAt (s.pc + 3#32)] = .ok (.syscall, []) :=
  ⟨fetchableBy (by decide +kernel), by decide +kernel⟩

theorem witness_StepRunsDecoded_statement :
    fetchable start ∧ statementAt dividing start.pc = some (.pseudo 4 (.mulDiv .div 2 3 (.const 0))) ∧
      statementAt dividing (start.jump 0x00400004).pc = none ∧ ¬ fetchable (start.jump 0x00400002) :=
  ⟨fetchableBy (by decide +kernel), by decide +kernel, by decide +kernel,
    fun h => absurd h.2.1 (by decide +kernel)⟩

theorem witness_MisalignedFetchRaises :
    (start.jump 0x00400001).ended = false ∧ (start.jump 0x00400001).pc.toNat % 4 ≠ 0 ∧
      (start.jump 0x00400003).pc.toNat % 4 ≠ 0 ∧ (∃ t, step (running 0x00000000) = .next t) ∧
      (start.jump 0xFFFFFFFC).pc = 0xFFFFFFFC#32 := ⟨by decide +kernel, by decide +kernel, by decide +kernel, ⟨_, rfl⟩, by decide +kernel⟩

/-- The map of the clause on `data`: its text ends two bytes into a word. -/
def startSplit : State :=
  startWith (fun c => { c with memmap := [⟨0x00400000, 2, .text⟩, ⟨0x00400002, 2, .data⟩, ⟨0x00400004, 3, .text⟩] })

theorem witness_FetchFollowsMap :
    (startSplit.ended = false ∧ startSplit.pc.toNat % 4 = 0 ∧ (startSplit.jump 0x00400004).pc.toNat % 4 = 0) ∧
      touches (startSplit.jump 0x00400004) .unmapped (bytesFrom (startSplit.jump 0x00400004).pc 4) ∧
      (allocated startSplit (bytesFrom startSplit.pc 4) ∧ touches startSplit .data (bytesFrom startSplit.pc 4)) ∧
      ∀ a ∈ bytesFrom (start.jump 0x00400FFC).pc 4, (start.jump 0x00400FFC).classAt a = .text :=
  ⟨by decide +kernel, touchesBy (by decide +kernel),
    ⟨allocatedBy (by decide +kernel), touchesBy (by decide +kernel)⟩, allClass (by decide +kernel)⟩

theorem witness_ExitEndsRun :
    (start.writeReg 2 10).readReg 2#5 = 10#32 ∧
      (∃ t, exec .syscall (start.writeReg 2 10) = .next t ∧ t.ended = true) ∧ start.ended = false :=
  ⟨by decide +kernel, exists_next (p := fun t => t.ended) (by decide +kernel), by decide +kernel⟩

theorem witness_ExitEndsRun_statements :
    (∃ t, execPseudo 2 (.li 2 5) start = .next t) ∧ faults (statementStep dividing) start ∧
      isRefused step (start.jump 0x10010000) ∧ exits step { start with ended := true } :=
  ⟨⟨_, rfl⟩, ⟨0, start, .divideByZero, start.pc, rfl, rfl⟩, ⟨0, start.jump 0x10010000, _, rfl, rfl⟩, ⟨0, _, rfl, rfl⟩⟩

theorem witness_InvariantKept :
    (running 0x2022FFFF).inv ∧ (∃ t, step (running 0x2022FFFF) = .next t) ∧ start.inv ∧
      ∃ t, execPseudo 3 (.usw 2 (.absolute 0x10010001)) start = .next t :=
  ⟨by unfold State.inv; decide, ⟨_, rfl⟩, by unfold State.inv; decide, ⟨_, rfl⟩⟩

/-- A state about to store register 2 in data. -/
def storing : State := (running 0xAC620000).writeReg 3 0x10010000

theorem witness_ParametersAndTextNeverChange :
    Memory.wf storing.mem = true ∧ (∃ t, step storing = .next t) ∧ storing.classAt 0x00400000#32 ≠ .data ∧
      storing.classAt 0x1000FFFF#32 ≠ .data ∧ ∃ t, execPseudo 2 (.li 2 5) storing = .next t :=
  ⟨by decide +kernel, ⟨_, rfl⟩, by decide +kernel, by decide +kernel, ⟨_, rfl⟩⟩

theorem witness_OnlyNamedWritersWrite :
    (∃ t, exec (.add 1 2 3) start = .next t) ∧ writesHiLo (.add 1 2 3) = false ∧ compares (.add 1 2 3) = false ∧
      Instr.add 1 2 3 ≠ .rfe ∧ stores (.add 1 2 3) = false ∧ Instr.add 1 2 3 ≠ .syscall ∧
      (∃ t, exec .syscall (start.writeReg 2 1) = .next t) ∧ (start.writeReg 2 1).readReg 2#5 ≠ 8#32 :=
  ⟨⟨_, rfl⟩, by decide +kernel, by decide +kernel, by decide +kernel, by decide +kernel, by decide +kernel, ⟨_, rfl⟩, by decide +kernel⟩

theorem witness_UnreadStateIsUnread :
    (∀ rd, Instr.mult 1 2 ≠ .mfhi rd ∧ Instr.mult 1 2 ≠ .mflo rd) ∧ Instr.mult 1 2 ≠ .rfe :=
  ⟨fun _ => ⟨nofun, nofun⟩, nofun⟩

theorem witness_FaultsAreListed :
    (∃ f, exec (.add 2 3 4) ((start.writeReg 3 0x7FFFFFFF).writeReg 4 1) = .fault f) ∧
      (∃ f, exec (.brk 7) start = .fault f) ∧ (∃ f, exec (.lw 2 0 1) start = .fault f) ∧
      (∃ f, exec (.lb 2 0 0) start = .fault f) ∧ ∃ f, exec .syscall start = .fault f :=
  ⟨⟨_, rfl⟩, ⟨_, rfl⟩, ⟨_, rfl⟩, ⟨_, rfl⟩, ⟨_, rfl⟩⟩

theorem witness_RefusedFormsAreThese_flag : refusedForm (.bczt 0 1) start (.conditionFlagUnspecified 0) :=
  .inl ⟨0, 1, .inl rfl, by decide +kernel, rfl⟩

theorem witness_RefusedFormsAreThese_link : refusedForm (.bgezal 31 1) start .linkSourceIsLink :=
  .inr (.inl ⟨1, .inl rfl, rfl⟩)

theorem witness_RefusedFormsAreThese_jalr : refusedForm (.jalr 31 31) start .jalrSameRegister :=
  .inr (.inr (.inl ⟨31, rfl, rfl⟩))

theorem witness_RefusedFormsAreThese_odd : refusedForm (.addD 2 4 31) start .oddFloatRegister :=
  .inr (.inr (.inr (.inl ⟨by unfold allEven; decide +kernel, rfl⟩)))

theorem witness_RefusedFormsAreThese_rfe :
    refusedForm .rfe (startWith fun c => { c with statusRestore := .notSupplied }) .statusRestoreNotSupplied :=
  .inr (.inr (.inr (.inr ⟨rfl, rfl, rfl⟩)))

theorem witness_RefusedFormsAreThese_refused :
    (∃ r, exec (.sw 2 3 0) (start.writeReg 3 0x00400000) = .refused r) ∧ ∃ r, exec (.jalr 2 2) start = .refused r :=
  ⟨⟨_, rfl⟩, ⟨_, rfl⟩⟩

theorem witness_RefusedFormsAreThese_pseudo :
    pseudoRefusals (.ld 31 (.absolute 4294967296)) = [.pairRegister31, .constantOutOfRange 4294967296] ∧
      pseudoRefusals (.mfc1D 31 3) = [.pairRegister31, .oddFloatRegister] ∧
      pseudoRefusals (.li 2 (-2147483649)) = [.constantOutOfRange (-2147483649)] ∧
      pseudoRefusals (.lS 1 (.absolute 0)) = [.oddFloatRegister] ∧
      ∃ r, execPseudo 2 (.sd 2 (.absolute 0x00400000)) start = .refused r :=
  ⟨by decide +kernel, by decide +kernel, by decide +kernel, by decide +kernel, ⟨_, rfl⟩⟩

theorem witness_ArithmeticLogicalResults :
    (∃ r, arithmeticResult (.addu 2 3 4) start = some r) ∧ (∃ r, arithmeticResult (.addiu 0 3 0x8000) start = some r) ∧
      (∃ r, arithmeticResult (.subu 2 2 2) start = some r) ∧ (∃ r, arithmeticResult (.and 2 3 4) start = some r) ∧
      (∃ r, arithmeticResult (.andi 2 3 0xFFFF) start = some r) ∧ (∃ r, arithmeticResult (.nor 2 3 4) start = some r) ∧
      (∃ r, arithmeticResult (.or 2 3 4) start = some r) ∧ (∃ r, arithmeticResult (.ori 2 3 0) start = some r) ∧
      (∃ r, arithmeticResult (.xor 2 3 4) start = some r) ∧ ∃ r, arithmeticResult (.xori 2 3 1) start = some r :=
  ⟨⟨_, rfl⟩, ⟨_, rfl⟩, ⟨_, rfl⟩, ⟨_, rfl⟩, ⟨_, rfl⟩, ⟨_, rfl⟩, ⟨_, rfl⟩, ⟨_, rfl⟩, ⟨_, rfl⟩, ⟨_, rfl⟩⟩

theorem witness_OverflowIsDetected :
    (exactResult (.add 2 3 4) ((start.writeReg 3 0x7FFFFFFE).writeReg 4 1) = some (2, 2147483647)) ∧
      (exactResult (.add 2 3 4) ((start.writeReg 3 0x7FFFFFFF).writeReg 4 1) = some (2, 2147483648)) ∧
      (exactResult (.addi 2 3 0xFFFF) (start.writeReg 3 0x80000001) = some (2, -2147483648)) ∧
      (exactResult (.addi 2 3 0xFFFF) (start.writeReg 3 0x80000000) = some (2, -2147483649)) ∧
      exactResult (.sub 0 3 4) ((start.writeReg 3 0x80000000).writeReg 4 1) = some (0, -2147483649) := by decide +kernel

theorem witness_ShiftResults :
    (∃ r, shiftResult (.sll 2 3 31 0) start = some r) ∧ (∃ r, shiftResult (.sllv 2 3 4) start = some r) ∧
      (∃ r, shiftResult (.srl 2 3 0 31) start = some r) ∧ (∃ r, shiftResult (.srlv 2 3 4) start = some r) ∧
      (∃ r, shiftResult (.sra 2 3 31 0) start = some r) ∧ ∃ r, shiftResult (.srav 2 3 4) start = some r :=
  ⟨⟨_, rfl⟩, ⟨_, rfl⟩, ⟨_, rfl⟩, ⟨_, rfl⟩, ⟨_, rfl⟩, ⟨_, rfl⟩⟩

theorem witness_ComparisonResults :
    (comparison (.slt 2 3 4) start = some (2, .lt, 0, 0) ∧ ¬ related .lt 0 0) ∧
      (comparison (.sltu 2 3 4) (start.writeReg 4 1) = some (2, .ltu, 0, 1) ∧ related .ltu 0 1) ∧
      (comparison (.slti 2 3 0xFFFF) start = some (2, .lt, 0, 0xFFFFFFFF) ∧ ¬ related .lt 0 0xFFFFFFFF) ∧
      (comparison (.sltiu 2 3 0xFFFF) start = some (2, .ltu, 0, 0xFFFFFFFF) ∧ related .ltu 0 0xFFFFFFFF) ∧
      Src2.wellFormed (.const 4294967295) = true ∧ related .eq (start.readReg 3) (operand start (.reg 4)) ∧
      ¬ related .gtu (start.readReg 3) (operand start (.const 4294967295)) := by
  unfold related; decide +kernel

theorem witness_MovesCopy :
    (∃ r, moveResult (.lui 2 0xFFFF) start = some r) ∧ (∃ r, moveResult (.mfhi 2) start = some r) ∧
      (∃ r, moveResult (.mflo 0) start = some r) ∧ ∃ r, moveResult (.mfcz 3 2 31) start = some r :=
  ⟨⟨_, rfl⟩, ⟨_, rfl⟩, ⟨_, rfl⟩, ⟨_, rfl⟩⟩

theorem witness_MultiplyAndDivideUnsigned : (start.writeReg 4 1).readReg 4#5 ≠ 0#32 := by decide +kernel

theorem witness_SignedDivision :
    let s := (start.writeReg 3 0x80000000).writeReg 4 1
    let t := (start.writeReg 3 0x80000001).writeReg 4 0xFFFFFFFF
    (s.readReg 4 ≠ 0#32 ∧ ¬ ((s.readReg 3).toInt = -2 ^ 31 ∧ (s.readReg 4).toInt = -1)) ∧
      (t.readReg 4 ≠ 0#32 ∧ ¬ ((t.readReg 3).toInt = -2 ^ 31 ∧ (t.readReg 4).toInt = -1)) := by decide +kernel

theorem witness_DivisionCorners :
    start.readReg 4 = 0#32 ∧ (start.writeReg 3 0x80000000).readReg 3 = 0x80000000#32 ∧
      ((start.writeReg 3 0x80000000).readReg 3).toInt = -2 ^ 31 ∧
      ((start.writeReg 4 0xFFFFFFFF).readReg 4).toInt = -1 := by decide +kernel

theorem witness_BranchOutcomes_taken :
    (∃ c offset, branchCondition (.beq 1 2 0x7FFF) start = some (c, offset) ∧ c) ∧
      (∃ c offset, branchCondition (.bne 1 2 1) (start.writeReg 1 1) = some (c, offset) ∧ c) ∧
      (∃ c offset, branchCondition (.bgez 1 0x8000) start = some (c, offset) ∧ c) ∧
      (∃ c offset, branchCondition (.bgtz 1 1) (start.writeReg 1 1) = some (c, offset) ∧ c) ∧
      (∃ c offset, branchCondition (.blez 1 1) start = some (c, offset) ∧ c) ∧
      (∃ c offset, branchCondition (.bltz 1 1) (start.writeReg 1 0xFFFFFFFF) = some (c, offset) ∧ c) ∧
      (∃ c offset, branchCondition (.bczt 1 1) (start.writeFlag 1 true) = some (c, offset) ∧ c) ∧
      ∃ c offset, branchCondition (.bczf 1 1) start = some (c, offset) ∧ c :=
  ⟨⟨_, _, rfl, rfl⟩, ⟨_, _, rfl, by decide +kernel⟩, ⟨_, _, rfl, by decide +kernel⟩, ⟨_, _, rfl, by decide +kernel⟩, ⟨_, _, rfl, by decide +kernel⟩,
    ⟨_, _, rfl, by decide +kernel⟩, ⟨_, _, rfl, rfl⟩, ⟨_, _, rfl, rfl⟩⟩

theorem witness_BranchOutcomes_not_taken :
    (∃ c offset, branchCondition (.bne 1 2 1) start = some (c, offset) ∧ ¬ c) ∧
      (∃ c offset, branchCondition (.bgez 1 1) (start.writeReg 1 0xFFFFFFFF) = some (c, offset) ∧ ¬ c) ∧
      ∃ c offset, branchCondition (.bczt 1 1) start = some (c, offset) ∧ ¬ c :=
  ⟨⟨_, _, rfl, by decide +kernel⟩, ⟨_, _, rfl, by decide +kernel⟩, ⟨_, _, rfl, by decide +kernel⟩⟩

theorem witness_BranchOutcomes_linking :
    (∃ c offset, linkCondition (.bgezal 30 1) start = some (c, offset) ∧ c) ∧
      (∃ c offset, linkCondition (.bltzal 0 1) start = some (c, offset) ∧ ¬ c) :=
  ⟨⟨_, _, rfl, by decide +kernel⟩, ⟨_, _, rfl, by decide +kernel⟩⟩

theorem witness_JumpOutcomes : (31#5 : Reg) ≠ 2#5 := by decide +kernel

theorem witness_AlignedPcIsKept :
    start.pc.toNat % 4 = 0 ∧ (∀ rs, Instr.beq 1 2 0xFFFF ≠ .jr rs) ∧ (∀ rd rs, Instr.beq 1 2 0xFFFF ≠ .jalr rd rs) ∧
      (∃ t, exec (.beq 1 2 0xFFFF) start = .next t) ∧ (∃ t, exec (.j 0x3FFFFFF) (start.jump 0x0FFFFFFC) = .next t) ∧
      ∃ t, exec (.jal 0) (start.jump 0xFFFFFFFC) = .next t :=
  ⟨by decide +kernel, fun _ => nofun, fun _ _ => nofun, ⟨_, rfl⟩, ⟨_, rfl⟩, ⟨_, rfl⟩⟩

/-- The start state with register 3 at an address. -/
def at3 (a : Word) : State := start.writeReg 3 a

theorem witness_LoadsComplete_byte :
    plainLoad (.lb 2 3 0xFFFF) (at3 0x10011000) = some (.byte, 2, 0x10010FFF) ∧
      allocated (at3 0x10011000) (bytesFrom 0x10010FFF#32 1) ∧
      plainLoad (.lbu 2 3 0) (at3 0x00400000) = some (.byteUnsigned, 2, 0x00400000) ∧
      allocated (at3 0x00400000) (bytesFrom 0x00400000#32 1) :=
  ⟨by decide +kernel, allocatedBy (by decide +kernel), by decide +kernel, allocatedBy (by decide +kernel)⟩

theorem witness_LoadsComplete_half :
    plainLoad (.lh 2 3 0) (at3 0x10010FFE) = some (.half, 2, 0x10010FFE) ∧ 0x10010FFE % loadBytes .half = 0 ∧
      allocated (at3 0x10010FFE) (bytesFrom 0x10010FFE#32 2) ∧
      plainLoad (.lhu 0 3 2) (at3 0x10010000) = some (.halfUnsigned, 0, 0x10010002) ∧
      0x10010002 % loadBytes .halfUnsigned = 0 ∧ allocated (at3 0x10010000) (bytesFrom 0x10010002#32 2) :=
  ⟨by decide +kernel, by decide +kernel, allocatedBy (by decide +kernel), by decide +kernel, by decide +kernel,
    allocatedBy (by decide +kernel)⟩

theorem witness_LoadsComplete_word :
    plainLoad (.lw 2 3 0xFFFC) (at3 0x10011000) = some (.word, 2, 0x10010FFC) ∧ 0x10010FFC % loadBytes .word = 0 ∧
      allocated (at3 0x10011000) (bytesFrom 0x10010FFC#32 4) ∧ (ea (at3 0x10010000) 3 0).toNat % 4 = 0 ∧
      allocated (at3 0x10010000) (bytesFrom (ea (at3 0x10010000) 3 0) 4) :=
  ⟨by decide +kernel, by decide +kernel, allocatedBy (by decide +kernel), by decide +kernel,
    allocatedBy (by decide +kernel)⟩

theorem witness_StoresComplete_narrow :
    Memory.wf (at3 0x10011000).mem = true ∧ plainStore (.sb 2 3 0xFFFF) (at3 0x10011000) = some (1, 0x10010FFF, 0) ∧
      writable (at3 0x10011000) (bytesFrom 0x10010FFF#32 1) ∧
      plainStore (.sh 2 3 2) (at3 0x10010000) = some (2, 0x10010002, 0) ∧
      writable (at3 0x10010000) (bytesFrom 0x10010002#32 2) :=
  ⟨by decide +kernel, by decide +kernel, writableBy (by decide +kernel), by decide +kernel,
    writableBy (by decide +kernel)⟩

theorem witness_StoresComplete_word :
    Memory.wf (at3 0x10010000).mem = true ∧
      plainStore (.sw 3 3 0) (at3 0x10010000) = some (4, 0x10010000, 0x10010000) ∧
      writable (at3 0x10010000) (bytesFrom 0x10010000#32 4) ∧
      plainStore (.swcz 3 2 3 0xFFFC) (at3 0x10011000) = some (4, 0x10010FFC, 0) ∧
      writable (at3 0x10011000) (bytesFrom 0x10010FFC#32 4) :=
  ⟨by decide +kernel, by decide +kernel, writableBy (by decide +kernel), by decide +kernel,
    writableBy (by decide +kernel)⟩

theorem witness_MisalignedAccessRaises_half :
    alignedAccess (.lh 2 3 1) (at3 0x10010000) = some (2, 0x10010001) ∧ 0x10010001 % 2 ≠ 0 ∧
      alignedAccess (.lhu 2 3 1) (at3 0) = some (2, 1) ∧ alignedAccess (.sh 2 3 3) (at3 0) = some (2, 3) := by
  decide +kernel

theorem witness_MisalignedAccessRaises_word :
    alignedAccess (.lw 2 3 2) (at3 0x10010000) = some (4, 0x10010002) ∧ 0x10010002 % 4 ≠ 0 ∧
      alignedAccess (.sw 2 3 3) (at3 0) = some (4, 3) ∧ alignedAccess (.lwcz 2 2 3 1) (at3 0) = some (4, 1) ∧
      alignedAccess (.swcz 0 2 3 2) (at3 0) = some (4, 2) := by decide +kernel

theorem witness_MisalignedAccessRaises_fetch :
    (start.jump 0x00400002).ended = false ∧ (start.jump 0x00400002).pc.toNat % 4 ≠ 0 := by decide +kernel

theorem witness_AccessFollowsMap_unmapped :
    access (.lb 2 3 0) (at3 0x10011000) = some (1, 0x10011000, bytesFrom 0x10011000#32 1) ∧
      touches (at3 0x10011000) .unmapped (bytesFrom 0x10011000#32 1) ∧
      access (.swcz 2 2 3 0) (at3 0x1000FFFC) = some (4, 0x1000FFFC, bytesFrom 0x1000FFFC#32 4) ∧
      touches (at3 0x1000FFFC) .unmapped (bytesFrom 0x1000FFFC#32 4) ∧
      access (.lwl 2 3 0) (at3 0x10011000) = some (1, 0x10011000, partners .left .little 0x10011000#32) ∧
      touches (at3 0x10011000) .unmapped (partners .left .little 0x10011000#32) :=
  ⟨by decide +kernel, touchesBy (by decide +kernel), by decide +kernel, touchesBy (by decide +kernel),
    by decide +kernel, touchesBy (by decide +kernel)⟩

theorem witness_AccessFollowsMap_text :
    access (.sb 2 3 0) (at3 0x00400FFF) = some (1, 0x00400FFF, bytesFrom 0x00400FFF#32 1) ∧
      stores (.sb 2 3 0) = true ∧ allocated (at3 0x00400FFF) (bytesFrom 0x00400FFF#32 1) ∧
      touches (at3 0x00400FFF) .text (bytesFrom 0x00400FFF#32 1) ∧
      access (.swr 2 3 0) (at3 0x00400FFE) = some (1, 0x00400FFE, partners .right .little 0x00400FFE#32) ∧
      stores (.swr 2 3 0) = true ∧ allocated (at3 0x00400FFE) (partners .right .little 0x00400FFE#32) ∧
      touches (at3 0x00400FFE) .text (partners .right .little 0x00400FFE#32) :=
  ⟨by decide +kernel, by decide +kernel, allocatedBy (by decide +kernel), touchesBy (by decide +kernel),
    by decide +kernel, by decide +kernel, allocatedBy (by decide +kernel), touchesBy (by decide +kernel)⟩

theorem witness_PartialLoads :
    partialLoad (.lwl 2 3 0) (at3 0x10010000) = some (.left, 2, 0x10010000) ∧
      allocated (at3 0x10010000) (partners .left .little 0x10010000#32) ∧
      partialLoad (.lwr 2 3 3) (at3 0x10010FFC) = some (.right, 2, 0x10010FFF) ∧
      allocated (at3 0x10010FFC) (partners .right .little 0x10010FFF#32) ∧
      allocated startBig (partners .left startBig.cfg.endian 0x10010001#32) ∧
      allocated startBig (partners .right startBig.cfg.endian 0x10010FFF#32) :=
  ⟨by decide +kernel, allocatedBy (by decide +kernel), by decide +kernel, allocatedBy (by decide +kernel),
    allocatedBy (by decide +kernel), allocatedBy (by decide +kernel)⟩

theorem witness_PartialStores :
    Memory.wf (at3 0x10010000).mem = true ∧
      partialStore (.swl 2 3 3) (at3 0x10010000) = some (.left, 0, 0x10010003) ∧
      writable (at3 0x10010000) (partners .left .little 0x10010003#32) ∧
      partialStore (.swr 2 3 0) (at3 0x10010000) = some (.right, 0, 0x10010000) ∧
      writable (at3 0x10010000) (partners .right .little 0x10010000#32) ∧
      writable startBig (partners .left startBig.cfg.endian 0x10010000#32) ∧
      writable startBig (partners .right startBig.cfg.endian 0x10010000#32) :=
  ⟨by decide +kernel, by decide +kernel, writableBy (by decide +kernel), by decide +kernel,
    writableBy (by decide +kernel), writableBy (by decide +kernel), writableBy (by decide +kernel)⟩

theorem witness_UnalignedPairReadsWord :
    let s := at3 0x10010001
    let b := startBig.writeReg 3 0x10010002
    ((2#5 : Reg) ≠ 0#5 ∧ (3#5 : Reg) ≠ 2#5) ∧ (ea s 3 3 = ea s 3 0 + 3#32 ∧ s.cfg.endian = .little) ∧
      allocated s (bytesFrom (ea s 3 0) 4) ∧ (ea b 3 3 = ea b 3 0 + 3#32 ∧ b.cfg.endian = .big) ∧
      allocated b (bytesFrom (ea b 3 0) 4) :=
  ⟨by decide +kernel, by decide +kernel, allocatedBy (by decide +kernel), by decide +kernel,
    allocatedBy (by decide +kernel)⟩

theorem witness_MixedWidths :
    Memory.wf storing.mem = true ∧ (∃ t, exec (.sw 2 3 0) storing = .next t) ∧ storing.cfg.endian = .little ∧
      (∃ t, exec (.sw 2 3 0) (startBig.writeReg 3 0x10010FFC) = .next t) ∧ startBig.cfg.endian = .big ∧
      (storing.writeReg 2 0x11223344).readReg 2 = 0x11223344#32 ∧
      ∃ t, exec (.sw 2 3 0) (storing.writeReg 2 0x11223344) = .next t :=
  ⟨by decide +kernel, ⟨_, rfl⟩, by decide +kernel, ⟨_, rfl⟩, by decide +kernel, by decide +kernel, ⟨_, rfl⟩⟩

theorem witness_FloatArithmeticResults :
    allEven (.addS 2 4 6) ∧ (∃ r, singleArithmetic (.addS 2 4 6) = some r) ∧
      (∃ r, singleArithmetic (.subS 2 4 6) = some r) ∧ (∃ r, singleArithmetic (.mulS 2 4 6) = some r) ∧
      (∃ r, singleArithmetic (.divS 2 2 2) = some r) ∧ allEven (.addD 30 0 30) ∧
      (∃ r, doubleArithmetic (.addD 30 0 30) = some r) ∧ (∃ r, doubleArithmetic (.subD 2 4 6) = some r) ∧
      (∃ r, doubleArithmetic (.mulD 2 4 6) = some r) ∧ (∃ r, doubleArithmetic (.divD 2 4 6) = some r) ∧
      start.cfg.fp = .ieee754 ∧ startHostFp.cfg.fp = .hostDefined :=
  ⟨by unfold allEven; decide, ⟨_, rfl⟩, ⟨_, rfl⟩, ⟨_, rfl⟩, ⟨_, rfl⟩, by unfold allEven; decide, ⟨_, rfl⟩, ⟨_, rfl⟩,
    ⟨_, rfl⟩, ⟨_, rfl⟩, by decide, by decide⟩

theorem witness_FloatResultsAreNearest :
    (∃ p, ratOf (single.valueOf 0x3F800000) = some p ∧ p ≠ 0) ∧ (∃ p, ratOf (single.valueOf 0x80000000) = some p) ∧
      ∃ p, ratOf (double.valueOf 0x7FEFFFFFFFFFFFFF) = some p :=
  ⟨⟨_, show ratOf (.fin false 8388608 (-23)) = some _ from rfl, by norm_num⟩, ⟨_, rfl⟩, ⟨_, rfl⟩⟩

theorem witness_FloatSpecialResults_nan :
    specialResult .add (single.valueOf 0x7F800001) (single.valueOf 0) = some .nan ∧
      specialResult .mul (single.valueOf 0) (single.valueOf 0xFF800000) = some .nan ∧
      specialResult .div (double.valueOf 0) (double.valueOf 0x8000000000000000) = some .nan ∧
      specialResult .sub (single.valueOf 0x7F800000) (single.valueOf 0x7F800000) = some .nan :=
  ⟨rfl, rfl, rfl, rfl⟩

theorem witness_FloatSpecialResults_inf :
    specialResult .div (single.valueOf 0x3F800000) (single.valueOf 0x80000000) = some (.inf true) ∧
      specialResult .sub (double.valueOf 0) (double.valueOf 0x7FF0000000000000) = some (.inf true) ∧
      specialResult .mul (single.valueOf 0xFF800000) (single.valueOf 1) = some (.inf true) := ⟨rfl, rfl, rfl⟩

theorem witness_FloatSpecialResults_zero :
    specialResult .mul (single.valueOf 0x80000000) (single.valueOf 0x3F800000) = some (.fin true 0 0) ∧
      specialResult .div (single.valueOf 0x3F800000) (single.valueOf 0xFF800000) = some (.fin true 0 0) ∧
      specialResult .sub (single.valueOf 0x3F800000) (single.valueOf 0x3F800000) = some (.fin false 0 0) :=
  ⟨rfl, rfl, show specialResult .sub (.fin false 8388608 (-23)) (.fin false 8388608 (-23)) = _ from if_pos rfl⟩

theorem witness_FloatComparisons :
    (∃ r, floatComparison (.cEqS 2 4) start = some r) ∧ (∃ r, floatComparison (.cLeS 2 4) start = some r) ∧
      (∃ r, floatComparison (.cLtS 2 4) start = some r) ∧ (∃ r, floatComparison (.cEqD 2 4) start = some r) ∧
      (∃ r, floatComparison (.cLeD 2 4) start = some r) ∧ (∃ r, floatComparison (.cLtD 2 2) start = some r) ∧
      allEven (.cEqS 2 4) ∧ start.cfg.fp = .ieee754 ∧ startHostFp.cfg.fp = .hostDefined ∧ (0#2 : CopNum) ≠ 1#2 :=
  ⟨⟨_, rfl⟩, ⟨_, rfl⟩, ⟨_, rfl⟩, ⟨_, rfl⟩, ⟨_, rfl⟩, ⟨_, rfl⟩, by unfold allEven; decide, by decide, by decide,
    by decide⟩

theorem witness_FloatConversionResults :
    (30#5 : Reg).toNat % 2 = 0 ∧ (0#5 : Reg).toNat % 2 = 0 ∧ start.cfg.fp = .ieee754 ∧
      startHostFp.cfg.fp = .hostDefined := by decide

/-- The start state with a value in `f[4]` and a rule of `FP_CVT_W`. -/
def rounding (rule : Rounding) (bits : Word) : State := (startWith fun c => { c with cvtW := rule }).writeSingle 4 bits

theorem witness_ConversionToInteger_nearestEven :
    let s := rounding .nearestEven 0x40200000
    toInteger (.cvtWS 2 4) s = some (2, .fin false 10485760 (-22)) ∧ allEven (.cvtWS 2 4) ∧ s.cfg.fp = .ieee754 ∧
      (∃ q, ratOf (.fin false 10485760 (-22)) = some q ∧ roundsTo s.cfg.cvtW q 2) :=
  ⟨by decide +kernel, by unfold allEven; decide, by decide, _, rfl, by
    show |_| ≤ _ ∧ _
    norm_num [abs_of_nonneg]⟩

theorem witness_ConversionToInteger_exact :
    toInteger (.cvtWD 2 4) (startHostFp.writeDouble 4 0x4000000000000000) = some (2, .fin false 4503599627370496 (-51)) ∧
      ratOf (.fin false 4503599627370496 (-51)) = some ((2 : Int) : ℚ) ∧ allEven (.cvtWD 2 4) :=
  ⟨by decide +kernel, by norm_num [ratOf], by unfold allEven; decide⟩

theorem witness_ConversionToInteger_towardZero :
    let s := rounding .towardZero 0xC0200000
    toInteger (.cvtWS 2 4) s = some (2, .fin true 10485760 (-22)) ∧
      (∃ q, ratOf (.fin true 10485760 (-22)) = some q ∧ roundsTo s.cfg.cvtW q (-2)) :=
  ⟨by decide +kernel, _, rfl, by
    show if _ then _ else _
    norm_num⟩

theorem witness_ConversionToInteger_directed :
    (∃ q, ratOf (.fin true 10485760 (-22)) = some q ∧ roundsTo (rounding .towardMinusInfinity 0).cfg.cvtW q (-3)) ∧
      ∃ q, ratOf (.fin true 10485760 (-22)) = some q ∧ roundsTo (rounding .towardPlusInfinity 0).cfg.cvtW q (-2) := by
  constructor
  · exact ⟨_, rfl, by show _ ∧ _; norm_num⟩
  · exact ⟨_, rfl, by show _ ∧ _; norm_num⟩

theorem witness_ConversionToInteger_least :
    toInteger (.cvtWS 2 4) (rounding .towardZero 0xCF000000) = some (2, .fin true 8388608 8) ∧
      ∃ q, ratOf (.fin true 8388608 8) = some q ∧ roundsTo .towardZero q (-2 ^ 31) :=
  ⟨by decide +kernel, _, rfl, by show if _ then _ else _; norm_num⟩

theorem witness_ConversionToInteger_too_large :
    toInteger (.cvtWS 2 4) (rounding .nearestEven 0x4F000000) = some (2, .fin false 8388608 8) ∧
      ∃ q, ratOf (.fin false 8388608 8) = some q ∧ roundsTo .nearestEven q (2 ^ 31) ∧ (2 : Int) ^ 31 - 1 < 2 ^ 31 :=
  ⟨by decide +kernel, _, rfl, by show |_| ≤ _ ∧ _; norm_num, by norm_num⟩

theorem witness_ConversionToInteger_nan :
    toInteger (.cvtWS 2 4) (rounding .nearestEven 0x7FC00000) = some (2, .nan) ∧ ratOf .nan = none ∧
      (∃ q, toInteger (.cvtWD 2 4) start = some (2, q) ∧ ratOf q ≠ none) :=
  ⟨by decide +kernel, rfl, _, rfl, nofun⟩

theorem witness_WideningIsExact :
    (∃ b, convertBits single double 0x00000001 = some b) ∧ (∃ b, convertBits single double 0xFF800000 = some b) ∧
      (2#5 : Reg).toNat % 2 = 0 ∧ start.cfg.fp = .ieee754 :=
  ⟨⟨_, rfl⟩, ⟨_, rfl⟩, by decide, by decide⟩

theorem witness_FloatSignsAndMoves :
    (30#5 : Reg).toNat % 2 = 0 ∧ single.valueOf (start.readSingle 4).toNat ≠ .nan ∧
      single.valueOf ((rounding .nearestEven 0x7F800001).readSingle 4).toNat = .nan ∧
      double.valueOf (start.readDouble 4).toNat ≠ .nan ∧
      double.valueOf ((start.writeDouble 4 0xFFF0000000000001).readDouble 4).toNat = .nan := by decide +kernel

theorem witness_RfeRestoresStatus :
    (startWith fun c => { c with statusRestore := .notSupplied }).cfg.statusRestore = .notSupplied ∧
      start.cfg.statusRestore = .supplied := by decide

theorem witness_PrintServices :
    (∃ e, printed (start.writeReg 2 1) = some e) ∧ (∃ e, printed (start.writeReg 2 2) = some e) ∧
      (∃ e, printed (start.writeReg 2 3) = some e) ∧ ∃ e, printed (start.writeReg 2 11) = some e :=
  ⟨⟨_, rfl⟩, ⟨_, rfl⟩, ⟨_, rfl⟩, ⟨_, rfl⟩⟩

/-- A state about to print the string at an address. -/
def printing (a : Word) (bs : List Byte) : State := ((start.writeReg 2 4).writeReg 4 a).withBytes a bs

theorem witness_PrintStringService_empty :
    (printing 0x10010FFF [0]).readReg 2#5 = 4#32 ∧
      (printing 0x10010FFF [0]).classAt ((printing 0x10010FFF [0]).readReg 4 + BitVec.ofNat 32 0) ≠ .unmapped ∧
      (printing 0x10010FFF [0]).byteAt ((printing 0x10010FFF [0]).readReg 4 + BitVec.ofNat 32 0) = 0#8 := by
  decide +kernel

theorem witness_PrintStringService_one :
    let s := printing 0x10010000 [0x41, 0x00]
    (∀ k < 1, s.classAt (s.readReg 4 + BitVec.ofNat 32 k) ≠ .unmapped ∧
      s.byteAt (s.readReg 4 + BitVec.ofNat 32 k) ≠ 0#8) ∧
      s.classAt (s.readReg 4 + BitVec.ofNat 32 1) ≠ .unmapped ∧ s.byteAt (s.readReg 4 + BitVec.ofNat 32 1) = 0#8 := by
  decide +kernel

theorem witness_PrintStringService_unmapped :
    let s := printing 0x10010FFF [0x41]
    s.readReg 2#5 = 4#32 ∧
      (∀ k < 1, s.classAt (s.readReg 4 + BitVec.ofNat 32 k) ≠ .unmapped ∧
        s.byteAt (s.readReg 4 + BitVec.ofNat 32 k) ≠ 0#8) ∧
      s.classAt (s.readReg 4 + BitVec.ofNat 32 1) = .unmapped := by decide +kernel

/-- A memory that lists a byte that is not zero at each of `n` addresses. -/
def filled : Nat → Nat → Memory
  | 0, _ => []
  | n + 1, a => (a, 0x41#8) :: filled n (a + 1)

theorem memoryGet_filled (n a k : Nat) (h : a ≤ k) (hk : k < a + n) : memoryGet (filled n a) k = some 0x41#8 := by
  induction n generalizing a with
  | zero => omega
  | succ n ih =>
    simp only [filled, memoryGet]
    split
    · rfl
    · exact ih (a + 1) (by omega) (by omega)

/-- A state that maps every address and holds no zero byte. -/
def endless (n : Nat) : State :=
  { (startWith fun c => { c with memmap := [⟨0, n, .data⟩] }).writeReg 2 4 with mem := filled n 0 }

theorem endless_byteAt (n : Nat) (hn : n = 2 ^ 32) (a : Word) :
    (endless n).classAt a = .data ∧ (endless n).byteAt a = 0x41#8 := by
  have h : a.toNat < n := hn ▸ a.isLt
  refine ⟨?_, ?_⟩
  · simp [endless, startWith, State.classAt, classIn, Region.holds, h, State.writeReg]
  · simp [endless, State.byteAt, memoryGet_filled n 0 a.toNat (Nat.zero_le _) (by omega)]

theorem witness_PrintStringService_endless :
    ∃ s : State, s.readReg 2#5 = 4#32 ∧ ∀ k < 2 ^ 32,
      s.classAt (s.readReg 4#5 + BitVec.ofNat 32 k) ≠ .unmapped ∧ s.byteAt (s.readReg 4#5 + BitVec.ofNat 32 k) ≠ 0#8 := by
  obtain ⟨n, hn⟩ : ∃ n : Nat, n = 2 ^ 32 := ⟨_, rfl⟩
  refine ⟨endless n, rfl, fun k _ => ?_⟩
  rw [(endless_byteAt n hn _).1, (endless_byteAt n hn _).2]
  decide

theorem witness_ReadServices :
    (start.writeReg 2 5).readReg 2#5 = 5#32 ∧ (start.writeReg 2 12).readReg 2#5 = 12#32 ∧
      (start.writeReg 2 6).readReg 2#5 = 6#32 ∧ (start.writeReg 2 7).readReg 2#5 = 7#32 ∧ start.inWords = [] ∧
      start.inDoubles = [] ∧ ({ start with inWords := [1, 2] } : State).inWords = 1#32 :: [2] ∧
      ({ start with inDoubles := [3] } : State).inDoubles = 3#64 :: [] := by decide +kernel

/-- A state about to read a string of a length into a buffer. -/
def readingString (a n : Word) : State := ((start.writeReg 2 8).writeReg 4 a).writeReg 5 n

theorem witness_ReadStringService_below_1 :
    (readingString 0 0).readReg 2#5 = 8#32 ∧ ((readingString 0 0).readReg 5).toInt < 1 ∧
      ((readingString 0 0x80000000).readReg 5).toInt < 1 := by decide +kernel

theorem witness_ReadStringService_1 :
    let s := readingString 0x10010FFF 1
    s.readReg 2#5 = 8#32 ∧ (s.readReg 5).toInt = 1 ∧ Memory.wf s.mem = true ∧
      ∀ k < (s.readReg 5).toInt.toNat, s.classAt (s.readReg 4 + BitVec.ofNat 32 k) = .data := by decide +kernel

theorem witness_ReadStringService_2 :
    let s := readingString 0x10010000 2
    (1 ≤ (s.readReg 5).toInt ∧ (s.readReg 5).toInt ≠ 1) ∧ Memory.wf s.mem = true ∧
      ∀ k < (s.readReg 5).toInt.toNat, s.classAt (s.readReg 4 + BitVec.ofNat 32 k) = .data := by decide +kernel

theorem witness_ReadStringService_unmapped :
    let s := readingString 0x10010FFF 2
    ((1 : Nat) : Int) < (s.readReg 5).toInt ∧ (∀ j < 1, s.classAt (s.readReg 4 + BitVec.ofNat 32 j) = .data) ∧
      s.classAt (s.readReg 4 + BitVec.ofNat 32 1) = .unmapped := by decide +kernel

theorem witness_ReadStringService_text :
    let s := readingString 0x00400FFF 1
    ((0 : Nat) : Int) < (s.readReg 5).toInt ∧ s.classAt (s.readReg 4 + BitVec.ofNat 32 0) = .text := by decide +kernel

theorem witness_UnknownServicesRaise :
    (start.writeReg 2 9).readReg 2#5 ∉ [1#32, 2#32, 3#32, 4#32, 5#32, 6#32, 7#32, 8#32, 10#32, 11#32, 12#32] ∧
      (start.writeReg 2 13).readReg 2#5 ∉ [1#32, 2#32, 3#32, 4#32, 5#32, 6#32, 7#32, 8#32, 10#32, 11#32, 12#32] ∧
      start.readReg 2#5 ∉ [1#32, 2#32, 3#32, 4#32, 5#32, 6#32, 7#32, 8#32, 10#32, 11#32, 12#32] := by decide +kernel

theorem witness_PseudoinstructionsEndAlike :
    (∃ t, execPseudo 2 (.li 2 5) start = .next t) ∧ (1#5 : Reg) ∉ pseudoDests (.li 2 5) ∧
      pseudoUsesHiLo (.li 2 5) = false ∧ ∃ t, execPseudo 3 (.mulDiv .mul 2 3 (.reg 4)) start = .next t :=
  ⟨⟨_, rfl⟩, by decide, rfl, ⟨_, rfl⟩⟩

theorem witness_PseudoResults :
    Pseudo.wellFormed (.li 2 (-2147483648)) = true ∧ (∃ v, pseudoResult (.li 2 (-2147483648)) start = some (2, some v)) ∧
      (∃ v, pseudoResult (.unary .abs 2 3) (start.writeReg 3 0x80000001) = some (2, some v)) ∧
      pseudoResult (.unary .abs 2 3) (start.writeReg 3 0x80000000) = some (2, none) ∧
      pseudoResult (.unary .neg 2 3) (start.writeReg 3 0x80000000) = some (2, none) ∧
      (∃ r, pseudoResult (.rol 2 3 (.const 0)) start = some r) ∧ (∃ r, pseudoResult (.ror 2 3 (.reg 4)) start = some r) ∧
      (∃ r, pseudoResult (.la 0 (.indexed 4294967295 3)) start = some r) ∧
      (∃ v, pseudoResult (.generalAlu .add 2 3 2147483647) start = some (2, some v)) ∧
      pseudoResult (.generalAlu .sub 2 3 (-2147483648)) start = some (2, none) :=
  ⟨by decide, ⟨_, rfl⟩, ⟨0x7FFFFFFF, by decide +kernel⟩, by decide +kernel, by decide +kernel, ⟨_, rfl⟩, ⟨_, rfl⟩,
    ⟨_, rfl⟩, ⟨0x7FFFFFFF, by decide +kernel⟩, by decide +kernel⟩

/-- The start state with two operands. -/
def operands (a b : Word) : State := (start.writeReg 3 a).writeReg 4 b

theorem witness_PseudoMultiplyDivide_mulo :
    let fits := operands 0x7FFFFFFF 1
    let high := operands 0x40000000 2
    let low := operands 0x80000001 2
    Src2.wellFormed (.reg 4) = true ∧
      (fits.readReg 3).toInt * (operand fits (.reg 4)).toInt ≤ 2 ^ 31 - 1 ∧
      2 ^ 31 - 1 < (high.readReg 3).toInt * (operand high (.reg 4)).toInt ∧
      (low.readReg 3).toInt * (operand low (.reg 4)).toInt < -2 ^ 31 := by decide +kernel

theorem witness_PseudoMultiplyDivide_mulou :
    let fits := operands 0xFFFFFFFF 1
    let high := operands 0x10000 0x10000
    (fits.readReg 3).toNat * (operand fits (.reg 4)).toNat < 2 ^ 32 ∧
      2 ^ 32 ≤ (high.readReg 3).toNat * (operand high (.reg 4)).toNat := by decide +kernel

theorem witness_PseudoMultiplyDivide_division :
    let corner := operands 0x80000000 0xFFFFFFFF
    let plain := operands 0x80000000 1
    operand start (.const 0) = 0#32 ∧
      ((corner.readReg 3).toInt = -2 ^ 31 ∧ (operand corner (.reg 4)).toInt = -1) ∧
      operand plain (.reg 4) ≠ 0#32 ∧
      ¬ ((plain.readReg 3).toInt = -2 ^ 31 ∧ (operand plain (.reg 4)).toInt = -1) := by decide +kernel

theorem witness_PseudoBranches :
    Pseudo.wellFormed (.branch .gtu 3 (.const 0) 0x00400010) = true ∧
      (∃ c label, pseudoCondition (.branch .gtu 3 (.const 0) 0x00400010) start = some (c, label) ∧ ¬ c) ∧
      (∃ c label, pseudoCondition (.b 0x00400010) start = some (c, label) ∧ c) ∧
      (∃ c label, pseudoCondition (.beqz 3 0x00400010) start = some (c, label) ∧ c) ∧
      ∃ c label, pseudoCondition (.bnez 3 0x00400010) start = some (c, label) ∧ ¬ c :=
  ⟨by decide, ⟨_, _, rfl, by unfold related; decide⟩, ⟨_, _, rfl, trivial⟩, ⟨_, _, rfl, by decide⟩,
    ⟨_, _, rfl, by decide⟩⟩

theorem witness_PseudoLoadsAndStores_load :
    Pseudo.wellFormed (.ulw 2 (.absolute 0x10010001)) = true ∧
      pseudoLoad (.ulw 2 (.absolute 0x10010001)) start = some (.word, 2, 1, 0x10010001) ∧
      allocated start (bytesFrom 0x10010001#32 4) ∧
      pseudoLoad (.generalLoad .half 2 (.absolute 0x10010001)) start = some (.half, 2, 2, 0x10010001) ∧
      0x10010001 % 2 ≠ 0 ∧ pseudoLoad (.ulh 2 (.absolute 0x10010FFF)) start = some (.half, 2, 1, 0x10010FFF) ∧
      touches start .unmapped (bytesFrom 0x10010FFF#32 2) ∧ (∃ r, pseudoLoad (.ulhu 2 (.absolute 0)) start = some r) :=
  ⟨by decide, by decide +kernel, allocatedBy (by decide +kernel), by decide +kernel, by decide, by decide +kernel,
    touchesBy (by decide +kernel), ⟨_, rfl⟩⟩

theorem witness_PseudoLoadsAndStores_store :
    Pseudo.wellFormed (.usw 2 (.absolute 0x10010001)) = true ∧ Memory.wf start.mem = true ∧
      pseudoStore (.usw 2 (.absolute 0x10010001)) start = some (4, 1, 0x10010001, 0) ∧
      writable start (bytesFrom 0x10010001#32 4) ∧
      pseudoStore (.sS 2 (.absolute 0x10010002)) start = some (4, 4, 0x10010002, 0) ∧ 0x10010002 % 4 ≠ 0 ∧
      pseudoStore (.ush 2 (.absolute 0x10010FFF)) start = some (2, 1, 0x10010FFF, 0) ∧
      touches start .unmapped (bytesFrom 0x10010FFF#32 2) ∧
      pseudoStore (.generalStoreCop 3 2 (.absolute 0x10010000)) start = some (4, 4, 0x10010000, 0) :=
  ⟨by decide, by decide, by decide +kernel, writableBy (by decide +kernel), by decide +kernel, by decide,
    by decide +kernel, touchesBy (by decide +kernel), by decide +kernel⟩

theorem witness_PseudoResults_mfc1D : (30#5 : Reg) ≠ 31#5 ∧ (30#5 : Reg).toNat % 2 = 0 := by decide

theorem witness_PseudoLoadsAndStores_coprocessor :
    Pseudo.wellFormed (.lS 2 (.absolute 0x10010000)) = true ∧
      pseudoCopLoad (.lS 2 (.absolute 0x10010000)) start = some (1, 2, 0x10010000) ∧
      allocated start (bytesFrom 0x10010000#32 4) ∧
      pseudoCopLoad (.generalLoadCop 3 31 (.absolute 0x10010002)) start = some (3, 31, 0x10010002) ∧
      0x10010002 % 4 ≠ 0 ∧ touches start .unmapped (bytesFrom 0x10011000#32 4) :=
  ⟨by decide, by decide +kernel, allocatedBy (by decide +kernel), by decide +kernel, by decide,
    touchesBy (by decide +kernel)⟩

theorem witness_PseudoLoadsAndStores_partial :
    Address.wellFormed (.absolute 0x10010001) = true ∧
      allocated start (partners .left .little (place start (.absolute 0x10010001))) ∧
      writable start (partners .right .little (place start (.absolute 0x10010001))) ∧
      touches start .unmapped (partners .right .little (place start (.absolute 0x10011001))) ∧
      touches start .text (partners .left .little (place start (.absolute 0x00400001))) :=
  ⟨by decide, allocatedBy (by decide +kernel), writableBy (by decide +kernel), touchesBy (by decide +kernel),
    touchesBy (by decide +kernel)⟩

theorem witness_PseudoLoadsAndStores_unaligned :
    allocated startEdges [0x00401000#32] ∧ touches startEdges .text [0x00401000#32] ∧
      startEdges.classAt 0x10011000#32 = .data ∧ touches startEdges .text [0x10011000#32 + 1#32] ∧
      writable start (bytesFrom 0x10010FFD#32 (4 - 0x10010FFD % 4)) ∧
      touches start .unmapped (bytesFrom (0x10010FFD#32 + BitVec.ofNat 32 3) 1) :=
  ⟨allocatedBy (by decide +kernel), touchesBy (by decide +kernel), by decide +kernel, touchesBy (by decide +kernel),
    writableBy (by decide +kernel), touchesBy (by decide +kernel)⟩

theorem witness_DoubleWordsSurviveMemory :
    Memory.wf start.mem = true ∧ Address.wellFormed (.absolute 0x10010FF8) = true ∧
      (∀ offset, Address.absolute 0x10010FF8 ≠ .indexed offset 1#5) ∧
      (place start (.absolute 0x10010FF8)).toNat % 4 = 0 ∧
      writable start (bytesFrom (place start (.absolute 0x10010FF8)) 8) ∧
      allocated start (bytesFrom (place start (.absolute 0x10010FF8)) 8) ∧
      ((30#5 : Reg) ≠ 31#5 ∧ (0#5 : Reg) ≠ 31#5) ∧ ((30#5 : Reg).toNat % 2 = 0 ∧ (0#5 : Reg).toNat % 2 = 0) :=
  ⟨by decide, by decide, fun _ => nofun, by decide +kernel, writableBy (by decide +kernel),
    allocatedBy (by decide +kernel), by decide, by decide⟩

theorem witness_DoubleWordsSurviveMemory_stops :
    (place start (.absolute 0x10010FFC)).toNat % 4 = 0 ∧ writable start (bytesFrom 0x10010FFC#32 4) ∧
      touches start .unmapped (bytesFrom (0x10010FFC#32 + 4#32) 4) ∧
      touches start .unmapped (bytesFrom 0x1000FFFC#32 4) ∧ touches start .text (bytesFrom 0x00400000#32 4) ∧
      (place start (.absolute 0x10010002)).toNat % 4 ≠ 0 :=
  ⟨by decide +kernel, writableBy (by decide +kernel), touchesBy (by decide +kernel), touchesBy (by decide +kernel),
    touchesBy (by decide +kernel), by decide +kernel⟩

theorem witness_GeneralFormsAgree :
    Src2.wellFormed (.const (-2147483648)) = true ∧ Src2.wellFormed (.reg 2) = true ∧
      (∃ v, aluResult .add (start.readReg 3) (operand start (.const 2147483647)) = some v) ∧
      aluResult .sub (start.readReg 3) (operand start (.const (-2147483648))) = none :=
  ⟨by decide, by decide, ⟨0x7FFFFFFF, by decide +kernel⟩, by decide +kernel⟩

theorem witness_GeneralFormsAgree_sets :
    related .lt (start.readReg 3) (operand start (.const 1)) ∧ ¬ related .lt (start.readReg 3) (operand start (.const (-1))) ∧
      related .ltu (start.readReg 3) (operand start (.const (-1))) ∧
      ¬ related .ltu (start.readReg 3) (operand start (.const 0)) := by unfold related; decide +kernel

theorem witness_GeneralFormsAgree_division :
    (operand start (.const 7) ≠ 0#32 ∧ ¬ ((start.readReg 3).toInt = -2 ^ 31 ∧ (operand start (.const 7)).toInt = -1)) ∧
      (((start.writeReg 3 0x80000000).readReg 3).toInt = -2 ^ 31 ∧ (operand start (.const (-1))).toInt = -1) ∧
      operand start (.const 0) = 0#32 := by decide +kernel

theorem witness_GeneralFormsAgree_memory :
    Address.wellFormed (.indexed (-4) 3) = true ∧ place (at3 0x10010004) (.indexed (-4) 3) = 0x10010000#32 ∧
      allocated (at3 0x10010004) (bytesFrom 0x10010000#32 4) ∧ writable (at3 0x10010004) (bytesFrom 0x10010000#32 4) ∧
      Memory.wf (at3 0x10010004).mem = true :=
  ⟨by decide, by decide +kernel, allocatedBy (by decide +kernel), writableBy (by decide +kernel), by decide +kernel⟩

theorem witness_AssembledTargetsReachLabels_odd (offset : BitVec 16) : target start offset ≠ 0x00400002#32 := by
  intro h
  have h4 := congrArg (fun w : Word => w.toNat % 4) h
  simp only [target, show start.cfg.branchBase = .afterBranch from rfl, show start.pc = 0x00400000#32 from rfl,
    BitVec.toNat_ofInt] at h4
  simp at h4
  omega

theorem witness_AssembledTargetsReachLabels_block :
    ((0x10000000#32 : Word).toNat / 2 ^ 28 ≠ (start.pc + 4#32).toNat / 2 ^ 28) ∧
      (0x00400002#32 : Word).toNat % 4 ≠ 0 ∧ target start 0xFFFF = start.pc := by decide +kernel

end Sys2Proof.Tests
end

section
/-! The fetch of an instruction and the move to the next one (10_state.md R24, R25; 60_exceptions.md R407). -/

namespace Sys2Proof.Machine

variable {s t : State}

/-- A fetch passes its checks exactly when `pc` is aligned and its four bytes are program text (R25, R60, R407). -/
theorem fetchStop_none :
    fetchStop s = none ↔ s.pc.toNat % 4 = 0 ∧ ∀ a ∈ bytesFrom s.pc 4, s.classAt a = .text := by
  have hread := readStop_none (s := s) 4 s.pc (bytesFrom s.pc 4)
  have hdata := anyOf_false (s := s) .data (bytesFrom s.pc 4)
  have htext (a : Word) : s.classAt a = .text ↔ s.classAt a ≠ .unmapped ∧ s.classAt a ≠ .data := by
    cases s.classAt a <;> simp
  simp only [htext, forall₂_and, ← hdata, ← and_assoc, ← hread]
  unfold fetchStop
  cases readStop s 4 s.pc (bytesFrom s.pc 4) with
  | some c => simp
  | none => cases s.anyOf .data (bytesFrom s.pc 4) <;> simp

/-- Alignment is the first check of a fetch (R25, R407). -/
theorem fetchStop_misaligned (h : s.pc.toNat % 4 ≠ 0) : fetchStop s = some (.raises (.addressError s.pc)) := by
  simp [fetchStop, readStop_misaligned 4 s.pc _ h]

/-- A step whose fetch is stopped has the outcome of that stop: nothing is decoded or executed. -/
theorem step_of_fetchStop {c : Stop} (hrun : s.ended = false) (h : fetchStop s = some c) : step s = stopWith c s := by
  simp [step, hrun, h]

/-- A step completes exactly when the run goes on, the fetch passes its checks, and the word decodes to an instruction
that completes. -/
theorem step_next :
    step s = .next t ↔
      s.ended = false ∧ fetchStop s = none ∧ ∃ i, decodeWord s.fetchWord = .ok i ∧ exec i s = .next t := by
  unfold step
  cases s.ended with
  | true => simp
  | false =>
    simp only [Bool.false_eq_true, if_false, true_and, unlessStop_next]
    cases decodeWord s.fetchWord <;> simp

theorem exec_nop : exec .nop s = done s := rfl

/-- The address of the next instruction is `pc + 4` modulo `2^32` (R25, decision D5). -/
theorem State.nextPc_toNat : s.nextPc.toNat = (s.pc.toNat + 4) % 2 ^ 32 :=
  BitVec.toNat_add s.pc 4#32

/-- Settles O7: alignment is the first check of a fetch, and a step completes only past all of them. -/
theorem misalignedFetchRaises : Obligations.MisalignedFetchRaises := by
  refine ⟨fun s hrun hpc => ?misaligned, fun s t hstep => ?aligned, fun s => ?next, fun s hpc => ?wraps⟩
  case misaligned => exact step_of_fetchStop hrun (fetchStop_misaligned hpc)
  case aligned =>
    obtain ⟨-, hfetch, -⟩ := step_next.1 hstep
    exact (fetchStop_none.1 hfetch).1
  case next => exact ⟨s.jump s.nextPc, exec_nop, State.nextPc_toNat⟩
  case wraps => exact ⟨s.jump s.nextPc, exec_nop, by simp [State.nextPc, hpc]⟩

end Sys2Proof.Machine
end

section
/-! What a fetch, a load or a store of a machine word reads, and why it is stopped (20_memory.md R51 to R61,
45_load.md R255, 60_exceptions.md R407). -/

namespace Sys2Proof.Machine

open Sys2Proof.Claims

variable {s : State} {i : Instr} {kind : LoadKind} {rt : Reg} {a v : Word} {count : Nat}

/-! ## Bytes and addresses -/

/-- A concatenation as a number: the high part is worth `2 ^ m`. -/
theorem toNat_append_add {n m : Nat} (x : BitVec n) (y : BitVec m) : (x ++ y).toNat = x.toNat * 2 ^ m + y.toNat := by
  rw [BitVec.toNat_append, ← Nat.shiftLeft_add_eq_or_of_lt y.isLt, Nat.shiftLeft_eq]

/-- The word at an address is the number its four bytes make under the byte order (R53). -/
theorem State.wordAt_toNat : (s.wordAt a).toNat = number s a 4 := by
  have h2 : a + 1#32 + 1#32 = a + 2#32 := by bv_omega
  have h3 : a + 2#32 + 1#32 = a + 3#32 := by bv_omega
  simp only [State.wordAt, wordOfBytes, number, h2, h3]
  cases s.cfg.endian <;> simp only [BitVec.toNat_cast, toNat_append_add] <;> omega

theorem State.wordAt_eq_number : s.wordAt a = BitVec.ofNat 32 (number s a 4) := by
  rw [← State.wordAt_toNat, BitVec.ofNat_toNat, BitVec.setWidth_eq]

/-- The model's effective address is the integer sum modulo `2^32` (R255). -/
theorem effectiveAddress_eq_ea (base : Reg) (offset : BitVec 16) : effectiveAddress s base offset = ea s base offset := by
  simp [effectiveAddress, ea, signExtendImm, BitVec.ofInt_add, BitVec.signExtend]

/-- The model's test of a class is the statements' `touches`. -/
theorem anyOf_true (c : AddrClass) (addrs : List Word) : s.anyOf c addrs = true ↔ touches s c addrs := by
  simp [State.anyOf, touches]

/-! ## The checks -/

/-- A misaligned write stops as a misaligned read does (R56). -/
theorem writeStop_misaligned (align : Nat) (a : Word) (addrs : List Word) (h : a.toNat % align ≠ 0) :
    writeStop s align a addrs = some (.raises (.addressError a)) := by
  simp [writeStop, readStop_misaligned align a addrs h]

/-- After alignment, a fetch checks that its bytes are allocated (R59, R407). -/
theorem fetchStop_unmapped (hpc : s.pc.toNat % 4 = 0) (h : touches s .unmapped (bytesFrom s.pc 4)) :
    fetchStop s = some (.raises (.busError s.pc)) := by
  obtain ⟨x, hx, hc⟩ := h
  rw [fetchStop, readStop_unmapped 4 s.pc _ hpc hx hc]

/-- Last, a fetch checks that no byte is data (R60, R407). -/
theorem fetchStop_data (hpc : s.pc.toNat % 4 = 0) (hmap : allocated s (bytesFrom s.pc 4))
    (h : touches s .data (bytesFrom s.pc 4)) : fetchStop s = some (.refuses (.fetchFromData s.pc)) := by
  have hread : readStop s 4 s.pc (bytesFrom s.pc 4) = none := (readStop_none 4 s.pc _).2 ⟨hpc, hmap⟩
  rw [fetchStop, hread]
  exact if_pos ((anyOf_true .data _).2 h)

/-! ## A step whose fetch passes its checks -/

/-- The fetched word runs when it decodes (R24). -/
theorem step_of_decode (hrun : s.ended = false) (hfetch : fetchStop s = none) (h : decodeWord s.fetchWord = .ok i) :
    step s = exec i s := by
  simp [step, hrun, hfetch, h]

/-- A fetched word of no row of the table raises (30_encoding.md R106). -/
theorem step_of_reserved {e : DecodeError} (hrun : s.ended = false) (hfetch : fetchStop s = none)
    (h : decodeWord s.fetchWord = .error e) : step s = raise (.reservedInstruction s.fetchWord) s := by
  simp [step, hrun, hfetch, h]

/-! ## The meaning of the loads and stores of a machine word -/

/-- A plain load is the shared load at its effective address, aligned to its size (45_load.md). -/
theorem exec_plainLoad (h : plainLoad i s = some (kind, rt, a)) : exec i s = loadReg kind (loadBytes kind) a rt done s := by
  unfold plainLoad at h
  split at h <;> cases h <;> rw [← effectiveAddress_eq_ea] <;> rfl

/-- A plain or coprocessor store is the shared store at its effective address (46_store.md). -/
theorem exec_plainStore (h : plainStore i s = some (count, a, v)) :
    ∃ kind, StoreKind.size kind = count ∧ exec i s = storeValue kind a v done s := by
  unfold plainStore at h
  split at h <;> cases h <;> rw [← effectiveAddress_eq_ea]
  case h_1 => exact ⟨.byte, rfl, rfl⟩
  case h_2 => exact ⟨.half, rfl, rfl⟩
  case h_3 => exact ⟨.word, rfl, rfl⟩
  case h_4 => exact ⟨.word, rfl, rfl⟩

/-- `lwcz` is the shared load of a coprocessor register at its effective address (45_load.md R263). -/
theorem exec_lwcz (z : CopNum) (rt base : Reg) (offset : BitVec 16) :
    exec (.lwcz z rt base offset) s = loadCop z rt (ea s base offset) done s := by
  rw [← effectiveAddress_eq_ea]
  rfl

/-- An access that needs an aligned address is a plain load, a plain or coprocessor store, or `lwcz`. -/
theorem alignedAccess_cases (h : alignedAccess i s = some (count, a)) :
    (∃ kind rt, plainLoad i s = some (kind, rt, a) ∧ loadBytes kind = count) ∨
      (∃ v, plainStore i s = some (count, a, v)) ∨
      ∃ z rt base offset, i = .lwcz z rt base offset ∧ ea s base offset = a ∧ count = 4 := by
  unfold alignedAccess at h
  split at h <;> cases h
  case h_1 kind rt hload => exact .inl ⟨kind, rt, hload, rfl⟩
  case h_2 v _ hstore => exact .inr (.inl ⟨v, hstore⟩)
  case h_3 z rt base offset _ _ => exact .inr (.inr ⟨z, rt, base, offset, rfl, rfl, rfl⟩)

/-- A misaligned access raises before anything is loaded or stored (R56). -/
theorem exec_misaligned (hacc : alignedAccess i s = some (count, a)) (hmis : a.toNat % count ≠ 0) :
    exec i s = raise (.addressError a) s := by
  obtain ⟨kind, rt, hload, rfl⟩ | ⟨v, hstore⟩ | ⟨z, rt, base, offset, rfl, rfl, rfl⟩ := alignedAccess_cases hacc
  · rw [exec_plainLoad hload, loadReg, readStop_misaligned _ _ _ hmis]
    rfl
  · obtain ⟨kind, rfl, hexec⟩ := exec_plainStore hstore
    rw [hexec, storeValue, storeCells, writeStop_misaligned _ _ _ hmis]
    rfl
  · rw [exec_lwcz, loadCop, readStop_misaligned _ _ _ hmis]
    rfl

/-! ## The obligations -/

/-- Settles O8: each clause meets the next check of a fetch, and past them all the step decodes the number at `pc`. -/
theorem fetchFollowsMap : Obligations.FetchFollowsMap := by
  refine fun s hrun hpc => ⟨fun hunmapped => ?unmapped, fun hmap hdata => ?data, fun htext => ?text⟩
  case unmapped => exact step_of_fetchStop hrun (fetchStop_unmapped hpc hunmapped)
  case data => exact step_of_fetchStop hrun (fetchStop_data hpc hmap hdata)
  case text =>
    have hfetch : fetchStop s = none := fetchStop_none.2 ⟨hpc, htext⟩
    have hword : s.fetchWord = BitVec.ofNat 32 (number s s.pc 4) := State.wordAt_eq_number
    rw [← hword]
    cases hdecode : decodeWord s.fetchWord with
    | ok i => exact step_of_decode hrun hfetch hdecode
    | error e => exact step_of_reserved hrun hfetch hdecode

/-- Settles O31: alignment is the first check of every such access, and of a fetch. -/
theorem misalignedAccessRaises : Obligations.MisalignedAccessRaises := by
  refine ⟨fun i s count a hacc hmis => ?access, fun s hrun hpc => ?fetch⟩
  case access => exact exec_misaligned hacc hmis
  case fetch => exact step_of_fetchStop hrun (fetchStop_misaligned hpc)

end Sys2Proof.Machine
end

section
/-! The decoder and the opcode table agree (30_encoding.md R100 to R106). A word that decodes is the word of its
instruction; a word a row accepts decodes to an instruction of that row; so a word of no row is reserved. -/

namespace Sys2Proof

open Sys2Proof.Machine Sys2Proof.Claims

variable {w : Word} {i : Instr} {r : OpcodeRow}

/-! ## A word is given by its fields -/

theorem wordR_eq_iff {op : BitVec 6} {a b c d : BitVec 5} {fn : BitVec 6} :
    wordR op a b c d fn = w ↔
      op = fieldOp w ∧ a = fieldRs w ∧ b = fieldRt w ∧ c = fieldRd w ∧ d = fieldSa w ∧ fn = fieldFunct w := by
  constructor
  · rintro rfl
    simp
  · rintro ⟨rfl, rfl, rfl, rfl, rfl, rfl⟩
    exact (word_eq_wordR w).symm

theorem wordI_eq_iff {op : BitVec 6} {a b : BitVec 5} {imm : BitVec 16} :
    wordI op a b imm = w ↔ op = fieldOp w ∧ a = fieldRs w ∧ b = fieldRt w ∧ imm = fieldImm w := by
  constructor
  · rintro rfl
    simp
  · rintro ⟨rfl, rfl, rfl, rfl⟩
    exact (word_eq_wordI w).symm

theorem wordJ_eq_iff {op : BitVec 6} {target : BitVec 26} :
    wordJ op target = w ↔ op = fieldOp w ∧ target = fieldTarget w := by
  constructor
  · rintro rfl
    simp
  · rintro ⟨rfl, rfl⟩
    exact (word_eq_wordJ w).symm

theorem wordS_eq_iff {op : BitVec 6} {code : BitVec 20} {fn : BitVec 6} :
    wordS op code fn = w ↔ op = fieldOp w ∧ code = fieldCode w ∧ fn = fieldFunct w := by
  constructor
  · rintro rfl
    simp
  · rintro ⟨rfl, rfl, rfl⟩
    exact (word_eq_wordS w).symm

theorem fieldCode_eq (w : Word) : fieldCode w = (fieldRs w ++ fieldRt w ++ fieldRd w ++ fieldSa w).cast rfl := by
  conv_lhs => rw [word_eq_wordR w]
  rw [fieldCode_wordR]

/-! ## The levels of the decoder (R101 to R105) -/

/-- The four opcodes of R83 with their low two bits, the coprocessor number, masked off. -/
theorem and_copMask_eq (x : BitVec 6) :
    (x &&& 0x3c#6 = 0x10#6 ↔ x = 0x10#6 ∨ x = 0x11#6 ∨ x = 0x12#6 ∨ x = 0x13#6) ∧
      (x &&& 0x3c#6 = 0x30#6 ↔ x = 0x30#6 ∨ x = 0x31#6 ∨ x = 0x32#6 ∨ x = 0x33#6) ∧
      (x &&& 0x3c#6 = 0x38#6 ↔ x = 0x38#6 ∨ x = 0x39#6 ∨ x = 0x3a#6 ∨ x = 0x3b#6) := by
  revert x
  decide

theorem decodeFields_cop (hop : fieldOp w &&& 0x3c#6 = 0x10#6) : decodeFields w = decodeCop w := by
  obtain ⟨hcop, -, -⟩ := and_copMask_eq (fieldOp w)
  obtain h | h | h | h := hcop.1 hop <;> simp only [decodeFields, h]

theorem decodeFields_lwcz (hop : fieldOp w &&& 0x3c#6 = 0x30#6) :
    decodeFields w = some (.lwcz (fieldZ w) (fieldRt w) (fieldRs w) (fieldImm w)) := by
  obtain ⟨-, hlwcz, -⟩ := and_copMask_eq (fieldOp w)
  obtain h | h | h | h := hlwcz.1 hop <;> simp only [decodeFields, h]

theorem decodeFields_swcz (hop : fieldOp w &&& 0x3c#6 = 0x38#6) :
    decodeFields w = some (.swcz (fieldZ w) (fieldRt w) (fieldRs w) (fieldImm w)) := by
  obtain ⟨-, -, hswcz⟩ := and_copMask_eq (fieldOp w)
  obtain h | h | h | h := hswcz.1 hop <;> simp only [decodeFields, h]

/-- The opcode 0x11 is that of coprocessor 1, whose `sub` field from 0x10 on is a format (R95). -/
theorem decodeFields_float (hop : fieldOp w = 0x11#6) : decodeFields w = decodeCop w ∧ fieldZ w = 1#2 := by
  constructor
  · simp only [decodeFields, hop]
  · simp only [fieldZ_eq, hop]
    rfl

theorem decodeFields_single (hop : fieldOp w = 0x11#6) (hfmt : fieldRs w = 0x10#5) :
    decodeFields w = decodeSingle w := by
  obtain ⟨hcop, hz⟩ := decodeFields_float hop
  simp [hcop, decodeCop, hfmt, hz]

theorem decodeFields_double (hop : fieldOp w = 0x11#6) (hfmt : fieldRs w = 0x11#5) :
    decodeFields w = decodeDouble w := by
  obtain ⟨hcop, hz⟩ := decodeFields_float hop
  simp [hcop, decodeCop, hfmt, hz]

theorem decodeFields_integer (hop : fieldOp w = 0x11#6) (hfmt : fieldRs w = 0x14#5) :
    decodeFields w = decodeInteger w := by
  obtain ⟨hcop, hz⟩ := decodeFields_float hop
  simp [hcop, decodeCop, hfmt, hz]

theorem decodeWord_ok : decodeWord w = .ok i ↔ decodeFields w = some i := by
  unfold decodeWord
  cases decodeFields w <;> simp

theorem decodeWord_of_none (h : decodeFields w = none) : decodeWord w = .error (.reserved w) := by
  rw [decodeWord, h]

/-- The zero word is `nop`, not a shift (R100, R373). -/
theorem decodeFields_zero : decodeFields 0#32 = some .nop := rfl

/-! ## A word that decodes is the word of its instruction

Each arm of the decoder has compared the fields that the instruction fixes, and its operands are the other fields. -/

theorem encode_of_decodeSpecial (hop : fieldOp w = 0x00#6) (h : decodeSpecial w = some i) : encode i = w := by
  simp only [decodeSpecial] at h
  repeat' split at h
  all_goals cases h
  case h_1.isTrue hzero => rw [hzero]; rfl
  all_goals simp [encode, wordR_eq_iff, wordS_eq_iff, *]

theorem encode_of_decodeRegimm (hop : fieldOp w = 0x01#6) (h : decodeRegimm w = some i) : encode i = w := by
  simp only [decodeRegimm] at h
  split at h <;> cases h
  all_goals simp [encode, wordI_eq_iff, *]

theorem encode_of_decodeSingle (hop : fieldOp w = 0x11#6) (hfmt : fieldRs w = 0x10#5) (h : decodeSingle w = some i) :
    encode i = w := by
  simp only [decodeSingle] at h
  repeat' split at h
  all_goals cases h
  all_goals simp [encode, wordR_eq_iff, *]

theorem encode_of_decodeDouble (hop : fieldOp w = 0x11#6) (hfmt : fieldRs w = 0x11#5) (h : decodeDouble w = some i) :
    encode i = w := by
  simp only [decodeDouble] at h
  repeat' split at h
  all_goals cases h
  all_goals simp [encode, wordR_eq_iff, *]

theorem encode_of_decodeInteger (hop : fieldOp w = 0x11#6) (hfmt : fieldRs w = 0x14#5) (h : decodeInteger w = some i) :
    encode i = w := by
  simp only [decodeInteger] at h
  repeat' split at h
  all_goals cases h
  all_goals simp [encode, wordR_eq_iff, *]

theorem encode_of_decodeCop (hop : opZ 0b0100#4 (fieldZ w) = fieldOp w) (h : decodeCop w = some i) : encode i = w := by
  have hfloat (hz : fieldZ w = 1#2) : fieldOp w = 0x11#6 := by rw [← hop, hz]; rfl
  simp only [decodeCop] at h
  repeat' split at h
  case h_4.isTrue hfmt hz => exact encode_of_decodeSingle (hfloat hz) hfmt h
  case h_5.isTrue hfmt hz => exact encode_of_decodeDouble (hfloat hz) hfmt h
  case h_6.isTrue hfmt hz => exact encode_of_decodeInteger (hfloat hz) hfmt h
  all_goals cases h
  all_goals simp [encode, wordR_eq_iff, wordI_eq_iff, *]

/-- No bit of a word that decodes is dropped. -/
theorem encode_of_decodeFields (h : decodeFields w = some i) : encode i = w := by
  simp only [decodeFields] at h
  split at h
  case h_1 hop => exact encode_of_decodeSpecial hop h
  case h_2 hop => exact encode_of_decodeRegimm hop h
  case h_17 hop | h_18 hop | h_19 hop | h_20 hop => exact encode_of_decodeCop (by rw [fieldZ_eq, hop]; rfl) h
  all_goals (try split at h) <;> cases h
  all_goals simp [encode, wordI_eq_iff, wordJ_eq_iff, fieldZ_eq, opZ, *]

/-! ## The rows of the table -/

/-- Part of a word given as a number. -/
theorem extractLsb'_word_ofNat (start len n : Nat) (h : start + len ≤ 32) :
    (BitVec.ofNat 32 n).extractLsb' start len = BitVec.ofNat len (n >>> start) := by
  apply BitVec.eq_of_getLsbD_eq
  intro k hk
  have hlt : start + k < 32 := by omega
  simp only [BitVec.getLsbD_extractLsb', BitVec.getLsbD_ofNat, Nat.testBit_shiftRight, hk, hlt, decide_true,
    Bool.true_and]

theorem fieldOp_ofNat (n : Nat) : fieldOp (BitVec.ofNat 32 n) = BitVec.ofNat 6 (n >>> 26) :=
  extractLsb'_word_ofNat 26 6 n (by omega)

theorem fieldRs_ofNat (n : Nat) : fieldRs (BitVec.ofNat 32 n) = BitVec.ofNat 5 (n >>> 21) :=
  extractLsb'_word_ofNat 21 5 n (by omega)

theorem fieldRt_ofNat (n : Nat) : fieldRt (BitVec.ofNat 32 n) = BitVec.ofNat 5 (n >>> 16) :=
  extractLsb'_word_ofNat 16 5 n (by omega)

theorem fieldRd_ofNat (n : Nat) : fieldRd (BitVec.ofNat 32 n) = BitVec.ofNat 5 (n >>> 11) :=
  extractLsb'_word_ofNat 11 5 n (by omega)

theorem fieldSa_ofNat (n : Nat) : fieldSa (BitVec.ofNat 32 n) = BitVec.ofNat 5 (n >>> 6) :=
  extractLsb'_word_ofNat 6 5 n (by omega)

theorem fieldFunct_ofNat (n : Nat) : fieldFunct (BitVec.ofNat 32 n) = BitVec.ofNat 6 (n >>> 0) :=
  extractLsb'_word_ofNat 0 6 n (by omega)

/-- A mask of 6 ones, as the numeral the masks of the table have. -/
theorem and_ones6 (x : BitVec 6) : x &&& 0x3f#6 = x := BitVec.and_allOnes

/-- A mask of 5 ones, as the numeral the masks of the table have. -/
theorem and_ones5 (x : BitVec 5) : x &&& 0x1f#5 = x := BitVec.and_allOnes

/-- A row accepts a word by its six fields, each under its part of the mask. -/
theorem accepts_iff_fields :
    r.accepts w = true ↔
      fieldOp w &&& fieldOp r.mask = fieldOp r.pattern ∧ fieldRs w &&& fieldRs r.mask = fieldRs r.pattern ∧
        fieldRt w &&& fieldRt r.mask = fieldRt r.pattern ∧ fieldRd w &&& fieldRd r.mask = fieldRd r.pattern ∧
        fieldSa w &&& fieldSa r.mask = fieldSa r.pattern ∧
        fieldFunct w &&& fieldFunct r.mask = fieldFunct r.pattern := by
  rw [OpcodeRow.accepts, beq_iff_eq, word_eq_wordR w, word_eq_wordR r.mask, Laws.and_wordR, wordR_eq_iff]
  simp

/-- The word of every instruction has the fixed bits of its row. -/
theorem rowOf_accepts_encode (i : Instr) : (rowOf i).accepts (encode i) = true := by
  open Laws.FixedBits in
  cases i
  exacts [add .., addu .., addi .., addiu .., sub .., subu .., mult .., multu .., div .., divu .., and .., andi ..,
    nor .., or .., ori .., xor .., xori .., sll .., sllv .., sra .., srav .., srl .., srlv .., lui .., slt .., sltu ..,
    slti .., sltiu .., bczt .., bczf .., beq .., bgez .., bgezal .., bgtz .., blez .., bltzal .., bltz .., bne .., j ..,
    jal .., jalr .., jr .., lb .., lbu .., lh .., lhu .., lw .., lwcz .., lwl .., lwr .., sb .., sh .., sw .., swcz ..,
    swl .., swr .., mfhi .., mflo .., mthi .., mtlo .., mfcz .., mtcz .., absD .., absS .., addD .., addS .., cEqD ..,
    cEqS .., cLeD .., cLeS .., cLtD .., cLtS .., cvtDS .., cvtDW .., cvtSD .., cvtSW .., cvtWD .., cvtWS .., divD ..,
    divS .., movD .., movS .., mulD .., mulS .., negD .., negS .., subD .., subS .., rfe, syscall, brk .., nop]

/-- The row of an instruction is found in the table by its bits. -/
theorem find_rowOf (i : Instr) :
    opcodeTable.find? (fun r => r.pattern == (rowOf i).pattern && r.mask == (rowOf i).mask) = some (rowOf i) := by
  cases i <;> rfl

theorem rowOf_mem_opcodeTable (i : Instr) : rowOf i ∈ opcodeTable := List.mem_of_find?_eq_some (find_rowOf i)

/-- The pattern of a row decodes to an instruction of the row, but for `sll`, whose pattern is the zero word. -/
theorem pattern_decodes : ∀ r ∈ opcodeTable,
    (decodeFields r.pattern).map rowOf = some r ∨ r = rowOf (.sll 0 0 0 0) := by
  decide +kernel

/-- Every row of the table is the row of an instruction. -/
theorem exists_rowOf (hr : r ∈ opcodeTable) : ∃ i, rowOf i = r := by
  obtain h | rfl := pattern_decodes r hr
  · obtain ⟨i, -, hi⟩ := Option.map_eq_some_iff.1 h
    exact ⟨i, hi⟩
  · exact ⟨_, rfl⟩

/-- The two rows that hold the zero word (R100). -/
theorem accepts_zero : ∀ r ∈ opcodeTable, r.accepts 0#32 = true → r = rowOf .nop ∨ r = rowOf (.sll 0 0 0 0) := by
  decide +kernel

/-- A word of a row, the zero word apart, decodes to an instruction of the row: the fields the row fixes take the decoder
to that row's arm, level by level. -/
theorem decodeFields_of_rowOf_accepts (hw : w ≠ 0#32) (h : (rowOf i).accepts w = true) :
    (decodeFields w).map rowOf = some (rowOf i) := by
  rw [accepts_iff_fields] at h
  cases i
  all_goals
    simp only [rowOf, BitVec.ofNat_eq_ofNat, fieldOp_ofNat, fieldRs_ofNat, fieldRt_ofNat, fieldRd_ofNat, fieldSa_ofNat,
      fieldFunct_ofNat, Nat.reduceShiftRight, BitVec.reduceOfNat, and_ones6, and_ones5, BitVec.and_zero, true_and,
      and_true] at h
  case nop =>
    obtain ⟨hop, hrs, hrt, hrd, hsa, hfn⟩ := h
    exact absurd (by rw [word_eq_wordR w, hop, hrs, hrt, hrd, hsa, hfn]; rfl) hw
  case syscall => simp [decodeFields, decodeSpecial, fieldCode_eq, h, rowOf]
  case lwcz => rw [decodeFields_lwcz h]; rfl
  case swcz => rw [decodeFields_swcz h]; rfl
  case bczt | bczf | mfcz | mtcz => simp [decodeFields_cop, decodeCop, h, rowOf]
  case absS | addS | cEqS | cLeS | cLtS | cvtDS | cvtWS | divS | movS | mulS | negS | subS | rfe =>
    simp [decodeFields_single, decodeSingle, h, rowOf]
  case absD | addD | cEqD | cLeD | cLtD | cvtSD | cvtWD | divD | movD | mulD | negD | subD =>
    simp [decodeFields_double, decodeDouble, h, rowOf]
  case cvtDW | cvtSW => simp [decodeFields_integer, decodeInteger, h, rowOf]
  case bgez | bgezal | bltz | bltzal => simp [decodeFields, decodeRegimm, h, rowOf]
  all_goals simp [decodeFields, decodeSpecial, h, hw, rowOf]

theorem decodeFields_of_accepts (hw : w ≠ 0#32) (hr : r ∈ opcodeTable) (h : r.accepts w = true) :
    ∃ i, decodeFields w = some i ∧ rowOf i = r := by
  obtain ⟨j, rfl⟩ := exists_rowOf hr
  exact Option.map_eq_some_iff.1 (decodeFields_of_rowOf_accepts hw h)

theorem rowOf_accepts_of_decodeFields (h : decodeFields w = some i) : (rowOf i).accepts w = true := by
  rw [← encode_of_decodeFields h]
  exact rowOf_accepts_encode i

/-- The decoder reserves exactly the words of no row (R106). -/
theorem decodeFields_eq_none_iff : decodeFields w = none ↔ ∀ r ∈ opcodeTable, r.accepts w = false := by
  constructor
  · intro hnone r hr
    have hw : w ≠ 0#32 := by
      rintro rfl
      simp [decodeFields_zero] at hnone
    by_contra hacc
    obtain ⟨i, hi, -⟩ := decodeFields_of_accepts hw hr (by simpa using hacc)
    simp [hnone] at hi
  · intro hall
    by_contra hsome
    obtain ⟨i, hi⟩ := Option.ne_none_iff_exists'.1 hsome
    simpa [hall _ (rowOf_mem_opcodeTable i)] using rowOf_accepts_of_decodeFields hi

/-! ## The reserved words of R106 -/

/-- A word of a floating-point format that decodes is `rfe` or has a pair of R105. -/
theorem floatPair_of_decodeFields (hop : fieldOp w = 0x11#6) (hfmt : 16 ≤ (fieldRs w).toNat)
    (h : decodeFields w = some i) : i = .rfe ∨ (fieldRs w, fieldFunct w) ∈ floatPairs := by
  obtain ⟨hcop, hz⟩ := decodeFields_float hop
  rw [hcop] at h
  simp only [decodeCop, decodeSingle, decodeDouble, decodeInteger, hz, if_true] at h
  split at h
  case h_1 hrs | h_2 hrs | h_3 hrs => simp [hrs] at hfmt
  all_goals
    repeat' split at h
    all_goals cases h
  all_goals simp [floatPairs, *]

theorem decodeFields_of_reservedShape (h : reservedShape w) : decodeFields w = none := by
  obtain ⟨hop, hfn, hsa⟩ | ⟨hop, hrs⟩ | ⟨hop, hfn, hzero⟩ | ⟨hop, hfmt, hpair, hrfe⟩ := h
  case inl => simp [decodeFields, decodeSpecial, hop, hfn, hsa]
  case inr.inl => simp [decodeFields, hop, hrs]
  case inr.inr.inl =>
    have hbits : ¬ (fieldRd w = 0#5 ∧ fieldSa w = 0#5) := not_and_or.2 hzero
    simp [decodeFields, decodeSpecial, hop, hfn, hbits]
  case inr.inr.inr =>
    by_contra hsome
    obtain ⟨i, hi⟩ := Option.ne_none_iff_exists'.1 hsome
    obtain rfl | hmem := floatPair_of_decodeFields hop hfmt hi
    · exact hrfe (encode_of_decodeFields hi).symm
    · exact hpair hmem

/-! ## The zero word -/

/-- A shift into register 0 by nothing is `nop` (R100, R373). -/
theorem exec_sll_zero (s : State) : exec (.sll 0#5 0#5 0#5 0#5) s = exec .nop s := by
  rw [exec_nop]
  exact congrArg done (writeReg_zero s _)

/-! ## The obligations -/

/-- Settles O3: a word of a row decodes into that row, so two rows share a word only where the decoder has to choose,
which is the zero word. -/
theorem decoderFollowsOpcodeTable : Obligations.DecoderFollowsOpcodeTable := by
  refine ⟨fun w i h => ?decoded, fun w r hr h => ?accepted, fun w h => ?reserved, fun w r r' hr hr' h h' hne => ?disjoint,
    fun s => (exec_sll_zero s).symm⟩
  case decoded =>
    have hi := decodeWord_ok.1 h
    exact ⟨rowOf_mem_opcodeTable i, rowOf_accepts_of_decodeFields hi, encode_of_decodeFields hi⟩
  case accepted =>
    by_cases hw : w = 0#32
    · subst hw
      refine ⟨.nop, decodeWord_ok.2 decodeFields_zero, ?_⟩
      obtain rfl | rfl := accepts_zero r hr h
      · exact .inl rfl
      · exact .inr ⟨rfl, rfl, rfl⟩
    · obtain ⟨i, hi, hrow⟩ := decodeFields_of_accepts hw hr h
      exact ⟨i, decodeWord_ok.2 hi, .inl hrow⟩
  case reserved => exact decodeWord_of_none (decodeFields_eq_none_iff.2 h)
  case disjoint =>
    by_cases hw : w = 0#32
    · subst hw
      obtain rfl | rfl := accepts_zero r hr h <;> obtain rfl | rfl := accepts_zero r' hr' h'
      · exact absurd rfl hne
      · exact .inl ⟨rfl, rfl⟩
      · exact .inr ⟨rfl, rfl⟩
      · exact absurd rfl hne
    · obtain ⟨i, hi, rfl⟩ := decodeFields_of_accepts hw hr h
      obtain ⟨j, hj, rfl⟩ := decodeFields_of_accepts hw hr' h'
      obtain rfl : i = j := Option.some.inj (hi.symm.trans hj)
      exact absurd rfl hne

/-- Settles O4: the decoder reserves exactly the words of no row, so a fetched one raises; and it reserves each of the
shapes R106 names. -/
theorem reservedWordsRaise : Obligations.ReservedWordsRaise := by
  refine ⟨fun s hfetchable hrows => ?fetched, fun w hshape => ?shapes⟩
  case fetched =>
    obtain ⟨hrun, hpc, htext⟩ := hfetchable
    exact step_of_reserved hrun (fetchStop_none.2 ⟨hpc, htext⟩) (decodeWord_of_none (decodeFields_eq_none_iff.2 hrows))
  case shapes => exact decodeFields_eq_none_iff.1 (decodeFields_of_reservedShape hshape)

end Sys2Proof
end

section
/-! The comparisons, of the machine and of the pseudoinstructions (43_comparison.md). Both are the shared `setIf`; they
differ in how they end, so the frame of each is put together from the frames of its writes. -/

namespace Sys2Proof.Machine

open Sys2Proof.Claims

variable {s t u : State} {rd : Reg} {v : Word}

/-! ## The frame of each state update -/

theorem frame_trans {ds ds' : List Reg} {cs cs' : List (CopNum × Reg)} {addrs addrs' : List Word}
    (h : frame s t ds cs addrs) (h' : frame t u ds' cs' addrs') :
    frame s u (ds ++ ds') (cs ++ cs') (addrs ++ addrs') := by
  obtain ⟨hregs, hcop, hflags, ⟨hhi, hlo⟩, hmem, ⟨hout, hwords, hdoubles, hlines⟩, hstatus, hcfg, hended⟩ := h
  obtain ⟨hregs', hcop', hflags', ⟨hhi', hlo'⟩, hmem', ⟨hout', hwords', hdoubles', hlines'⟩, hstatus', hcfg', hended'⟩ := h'
  simp only [frame, keepsRegs, keepsCop, keepsMemory, List.mem_append, not_or]
  exact ⟨fun r ⟨hr, hr'⟩ => (hregs' r hr').trans (hregs r hr), fun z i ⟨hi, hi'⟩ => (hcop' z i hi').trans (hcop z i hi),
    fun z => (hflags' z).trans (hflags z), ⟨hhi'.trans hhi, hlo'.trans hlo⟩,
    fun a ⟨ha, ha'⟩ => (hmem' a ha').trans (hmem a ha),
    ⟨hout'.trans hout, hwords'.trans hwords, hdoubles'.trans hdoubles, hlines'.trans hlines⟩,
    hstatus'.trans hstatus, hcfg'.trans hcfg, hended'.trans hended⟩

theorem frame_refl (s : State) : frame s s [] [] [] := by
  simp [frame, keepsRegs, keepsCop, keepsFlags, keepsHiLo, keepsMemory, keepsConsole, keepsRun]

theorem frame_jump (s : State) (a : Word) : frame s (s.jump a) [] [] [] := frame_refl s

theorem frame_afterDraws (s : State) (n : Nat) : frame s (s.afterDraws n) [] [] [] := frame_refl s

theorem frame_writeReg (s : State) (rd : Reg) (v : Word) : frame s (s.writeReg rd v) [rd] [] [] := by
  refine ⟨fun r hr => ?_, (frame_refl s).2⟩
  exact readReg_writeReg_other s (List.ne_of_not_mem_cons hr) v

/-! ## How an instruction that writes one register ends -/

theorem readReg_writeReg_dest (s : State) (rd : Reg) (v : Word) :
    (s.writeReg rd v).readReg rd = if rd = 0#5 then 0#32 else v := by
  simp [readReg_writeReg]

/-- A machine instruction that only writes a general register, and ends (10_state.md R24). -/
theorem setsReg_of_exec {i : Instr} (h : exec i s = done (s.writeReg rd v)) : setsReg i s rd v :=
  ⟨_, h, readReg_writeReg_dest s rd v, rfl, frame_trans (frame_writeReg s rd v) (frame_jump _ _), rfl⟩

/-- The end of a pseudoinstruction leaves its own destinations alone (R38). -/
theorem readReg_scratchAt {dests : List Reg} {r : Reg} (hr : r ∈ dests) : (scratchAt dests s).readReg r = s.readReg r := by
  by_cases hscratch : 1#5 ∈ dests
  · simp [scratchAt, hscratch]
  · have hne : r ≠ 1#5 := fun h => hscratch (h ▸ hr)
    simp [scratchAt, hscratch, readReg_writeReg_other s hne]

/-- The end of a pseudoinstruction changes no register but `x[1]` (R38). -/
theorem frame_scratchAt (s : State) (dests : List Reg) : frame s (scratchAt dests s) [1#5] [] [] := by
  unfold scratchAt
  split
  · exact ⟨fun _ _ => rfl, (frame_refl s).2⟩
  · exact frame_trans (frame_writeReg s 1#5 _) (frame_afterDraws _ 1)

/-- A pseudoinstruction that only writes a general register, and ends (R38). -/
theorem pseudoSets_of_execPseudo {len : Nat} {p : Pseudo} (h : execPseudo len p s = endPseudo len [rd] (s.writeReg rd v)) :
    pseudoSets len p s rd v false := by
  have hread : (scratchAt [rd] (s.writeReg rd v)).readReg rd = if rd = 0#5 then 0#32 else v :=
    (readReg_scratchAt (List.mem_singleton_self rd)).trans (readReg_writeReg_dest s rd v)
  obtain ⟨hregs, hcop, hflags, hhilo, hmem, hconsole, hrun⟩ :=
    frame_trans (frame_writeReg s rd v) (frame_scratchAt (s.writeReg rd v) [rd])
  exact ⟨_, h, hread, rfl, hregs, hcop, hflags, hmem, hconsole, hrun, fun _ => hhilo⟩

/-! ## The shared operation of the comparisons -/

/-- The model's test of a relation is the relation of the statements (43_comparison.md R195). -/
theorem relationHolds_iff (rel : Relation) (a b : Word) : relationHolds rel a b = true ↔ related rel a b := by
  cases rel <;> exact decide_eq_true_iff

theorem setIf_of_related {rel : Relation} {a b : Word} (fin : State → Result) (h : related rel a b) :
    setIf rel rd a b fin s = fin (s.writeReg rd 1#32) := by
  simp [setIf, setReg, truthWord, (relationHolds_iff rel a b).2 h]

theorem setIf_of_not_related {rel : Relation} {a b : Word} (fin : State → Result) (h : ¬ related rel a b) :
    setIf rel rd a b fin s = fin (s.writeReg rd 0#32) := by
  simp [setIf, setReg, truthWord, mt (relationHolds_iff rel a b).1 h]

/-! ## The meaning of the comparisons -/

/-- `slt`, `sltu`, `slti` and `sltiu` are the shared operation; an immediate is sign-extended (R203 to R206). -/
theorem exec_comparison {i : Instr} {rel : Relation} {a b : Word} (h : comparison i s = some (rd, rel, a, b)) :
    exec i s = setIf rel rd a b done s := by
  unfold comparison at h
  split at h <;> cases h <;> rfl

/-- The check of a `Src2` passes exactly the constants in range (60_exceptions.md R406, decision D19). -/
theorem src2Stop_none (c : Src2) : src2Stop c = none ↔ c.wellFormed = true := by
  cases c with
  | reg r => exact iff_of_true rfl rfl
  | const n => simp [src2Stop, constantStop, Src2.wellFormed]

theorem valueOf_eq_operand (s : State) (c : Src2) : valueOf s c = operand s c := by
  cases c <;> rfl

/-- A set pseudoinstruction with a constant in range is the shared operation (R196 to R202, R207). -/
theorem execPseudo_set (len : Nat) (rel : Relation) (rd r : Reg) {c : Src2} (hc : c.wellFormed = true) :
    execPseudo len (.set rel rd r c) s = setIf rel rd (s.readReg r) (operand s c) (endPseudo len [rd]) s := by
  simp only [execPseudo, formStop, (src2Stop_none c).2 hc, unlessStop_none, pseudoEffect, valueOf_eq_operand]

/-! ## The obligation -/

/-- Settles O21: every comparison is the shared operation, which writes 1 or 0 by its relation and always ends. -/
theorem comparisonResults : Obligations.ComparisonResults := by
  refine ⟨fun i s rd rel a b hcmp => ⟨fun hrel => ?machine1, fun hrel => ?machine0⟩,
    fun len rel rd r c s hc => ⟨fun hrel => ?pseudo1, fun hrel => ?pseudo0⟩⟩
  case machine1 => exact setsReg_of_exec ((exec_comparison hcmp).trans (setIf_of_related done hrel))
  case machine0 => exact setsReg_of_exec ((exec_comparison hcmp).trans (setIf_of_not_related done hrel))
  case pseudo1 => exact pseudoSets_of_execPseudo ((execPseudo_set len rel rd r hc).trans (setIf_of_related _ hrel))
  case pseudo0 => exact pseudoSets_of_execPseudo ((execPseudo_set len rel rd r hc).trans (setIf_of_not_related _ hrel))

end Sys2Proof.Machine
end

section
/-! `rfe`, `nop`, and the services of `syscall` that print or do not exist (49_exception_trap_syscall.md). Every print
service is an event appended to `host.out`; what service 4 appends, or why it stops, is a walk along the string. -/

namespace Sys2Proof.Machine

open Sys2Proof.Claims

variable {s : State} {e : OutputEvent} {code start a : Word} {n fuel : Nat}

/-! ## The service a code selects (R371, R377) -/

theorem exec_syscall (hcode : s.readReg 2#5 = code) : exec .syscall s = service code s := by
  subst hcode
  rfl

/-- A code without a service raises (R392). -/
theorem service_unknown (h : code ∉ [1#32, 2#32, 3#32, 4#32, 5#32, 6#32, 7#32, 8#32, 10#32, 11#32, 12#32]) (s : State) :
    service code s = raise (.unknownSyscall code) s := by
  unfold service
  split
  case h_12 => rfl
  all_goals simp at h

/-! ## The print services -/

/-- A print service appends an event to `host.out`, moves to the next instruction, and changes nothing else (R376). -/
theorem prints_of_exec (h : exec .syscall s = done (s.emit e)) : prints s e := by
  obtain ⟨hregs, hcop, hflags, hhilo, hmem, -, hrun⟩ := frame_refl s
  exact ⟨_, h, rfl, rfl, rfl, rfl, rfl, hregs, hcop, hflags, hhilo, hmem, hrun, rfl⟩

/-- `d[12]` is `f[13] : f[12]`, the second the less significant (R380). -/
theorem readDouble_12 (s : State) :
    s.readDouble 12#5 = BitVec.ofNat 64 ((s.readSingle 13#5).toNat * 2 ^ 32 + (s.readSingle 12#5).toNat) := by
  rw [← toNat_append_add, BitVec.ofNat_toNat]
  rfl

/-- Services 1, 2, 3 and 11 append their event (R378, R379, R380, R387). -/
theorem exec_syscall_of_printed (h : printed s = some e) : exec .syscall s = done (s.emit e) := by
  unfold printed at h
  split_ifs at h with hint hfloat hdbl hchar <;> cases h
  · exact exec_syscall hint
  · exact exec_syscall hfloat
  · rw [exec_syscall hdbl, ← readDouble_12]
    rfl
  · exact exec_syscall hchar

/-! ## The string of service 4 (R381) -/

/-- The first `n` bytes from `a` are allocated and not zero: the string that starts at `a` goes on past them. -/
def goesOn (s : State) (a : Word) (n : Nat) : Prop :=
  ∀ k < n, s.classAt (a + BitVec.ofNat 32 k) ≠ .unmapped ∧ s.byteAt (a + BitVec.ofNat 32 k) ≠ 0#8

/-- The `n` bytes from `a`. -/
def bytesOn (s : State) (a : Word) (n : Nat) : List Byte := (List.range n).map fun k => s.byteAt (a + BitVec.ofNat 32 k)

theorem add_one_add_ofNat (a : Word) (k : Nat) : a + 1#32 + BitVec.ofNat 32 k = a + BitVec.ofNat 32 (k + 1) := by
  bv_omega

theorem goesOn_succ :
    goesOn s a (n + 1) ↔ (s.classAt a ≠ .unmapped ∧ s.byteAt a ≠ 0#8) ∧ goesOn s (a + 1#32) n := by
  simp only [goesOn, Nat.forall_lt_succ_left, add_one_add_ofNat, BitVec.add_zero]

theorem bytesOn_succ : bytesOn s a (n + 1) = s.byteAt a :: bytesOn s (a + 1#32) n := by
  simp only [bytesOn, List.range_succ_eq_map, List.map_cons, List.map_map, Function.comp_def, add_one_add_ofNat,
    BitVec.add_zero]

/-- The walk passes the bytes that do not end it, and puts them in front of what it finds after them. -/
theorem stringAt_of_goesOn (h : goesOn s a n) :
    stringAt s start (n + fuel) a = (stringAt s start fuel (a + BitVec.ofNat 32 n)).map (bytesOn s a n ++ ·) := by
  induction n generalizing a with
  | zero =>
    rw [Nat.zero_add, BitVec.add_zero]
    cases stringAt s start fuel a <;> rfl
  | succ n ih =>
    obtain ⟨⟨hmap, hbyte⟩, hrest⟩ := goesOn_succ.1 h
    rw [Nat.succ_add, stringAt, if_neg hmap, if_neg hbyte, ih hrest, bytesOn_succ, add_one_add_ofNat]
    cases stringAt s start fuel (a + BitVec.ofNat 32 (n + 1)) <;> rfl

/-- A zero byte ends the string before it. -/
theorem stringAt_of_zeroByte (hlt : n < fuel) (hgo : goesOn s a n)
    (hmap : s.classAt (a + BitVec.ofNat 32 n) ≠ .unmapped) (hzero : s.byteAt (a + BitVec.ofNat 32 n) = 0#8) :
    stringAt s start fuel a = .ok (bytesOn s a n) := by
  obtain ⟨rest, rfl⟩ := Nat.exists_eq_add_of_lt hlt
  rw [Nat.add_assoc, stringAt_of_goesOn hgo, stringAt, if_neg hmap, if_pos hzero]
  exact congrArg Except.ok (List.append_nil _)

/-- A byte that is not allocated stops the walk, with its own address. -/
theorem stringAt_of_unmapped (hlt : n < fuel) (hgo : goesOn s a n)
    (hmap : s.classAt (a + BitVec.ofNat 32 n) = .unmapped) :
    stringAt s start fuel a = .error (.raises (.busError (a + BitVec.ofNat 32 n))) := by
  obtain ⟨rest, rfl⟩ := Nat.exists_eq_add_of_lt hlt
  rw [Nat.add_assoc, stringAt_of_goesOn hgo, stringAt, if_pos hmap]
  rfl

/-- A string that uses up the fuel of the walk is refused (decision D29). -/
theorem stringAt_endless (hgo : goesOn s a fuel) : stringAt s start fuel a = .error (.refuses (.endlessString start)) :=
  stringAt_of_goesOn (fuel := 0) hgo

theorem printString_of_ok {bs : List Byte} (h : stringAt s (s.readReg 4#5) (2 ^ 32) (s.readReg 4#5) = .ok bs) :
    printString s = done (s.emit (.printString bs)) := by
  rw [printString, h]

theorem printString_of_error {stop : Stop} (h : stringAt s (s.readReg 4#5) (2 ^ 32) (s.readReg 4#5) = .error stop) :
    printString s = stopWith stop s := by
  rw [printString, h]

/-! ## The return from an exception (R370) -/

theorem exec_rfe (s : State) : exec .rfe s = returnFromException done s := rfl

theorem returnFromException_notSupplied (fin : State → Result) (h : s.cfg.statusRestore = .notSupplied) :
    returnFromException fin s = .refused .statusRestoreNotSupplied := by
  rw [returnFromException, h]

/-! ## The obligations -/

/-- Settles O48: each of the four codes selects an append to `host.out`, which changes nothing else. -/
theorem printServices : Obligations.PrintServices :=
  fun _ _ hprinted => prints_of_exec (exec_syscall_of_printed hprinted)

/-- Settles O49: the walk passes every byte that does not end it, so the first that does decides. -/
theorem printStringService : Obligations.PrintStringService := by
  intro s hcode a
  have hexec : exec .syscall s = printString s := exec_syscall hcode
  refine ⟨fun n hn hgo hmap hzero => ?ends, fun n hn hgo hmap => ?stops, fun hgo => ?endless⟩
  case ends => exact prints_of_exec (hexec.trans (printString_of_ok (stringAt_of_zeroByte hn hgo hmap hzero)))
  case stops => exact hexec.trans (printString_of_error (stringAt_of_unmapped hn hgo hmap))
  case endless => exact hexec.trans (printString_of_error (stringAt_endless hgo))

/-- Settles O46: `rfe` is the return from an exception, which looks at `STATUS_RESTORE` and writes `status` alone. -/
theorem rfeRestoresStatus : Obligations.RfeRestoresStatus := by
  refine ⟨⟨rfl, rfl⟩, fun s hnot => ?refused, fun s hsupplied => ?supplied⟩
  case refused => exact (exec_rfe s).trans (returnFromException_notSupplied done hnot)
  case supplied =>
    have hexec : exec .rfe s = done s.restoreStatus :=
      (exec_rfe s).trans ((returnFromException_next done).2 ⟨hsupplied, rfl⟩)
    obtain ⟨hregs, hcop, hflags, hhilo, hmem, hconsole, -, hcfg, hended⟩ := frame_refl s
    exact ⟨_, hexec, rfl, rfl, hregs, hcop, hflags, hhilo, hmem, hconsole, hcfg, hended, rfl⟩

/-- Settles O47: the decoder takes the zero word as `nop`, and the shift it also is writes register 0. -/
theorem nopDoesNothing : Obligations.NopDoesNothing :=
  ⟨decodeWord_ok.2 decodeFields_zero, fun s => ⟨exec_nop, exec_sll_zero s⟩⟩

/-- Settles O52: every code of no service reaches the last arm of `service`. -/
theorem unknownServicesRaise : Obligations.UnknownServicesRaise :=
  fun s hcode => (exec_syscall rfl).trans (service_unknown hcode s)

end Sys2Proof.Machine
end

section
/-! Decoding what was encoded, and encoding what was decoded (30_encoding.md sections 1 to 4): each arm of the encoder
fills the fields that the decoder tests. -/

namespace Sys2Proof

open Sys2Proof.Machine

variable {w : Word} {i : Instr}

/-- The bytes of a word make that word, under either byte order (20_memory.md R53, R54). -/
theorem decodeBytes_bytesOfWord (e : Endian) (w : Word) (rest : List Byte) :
    decodeBytes e (bytesOfWord e w ++ rest) = (decodeWord w).map (·, rest) := by
  have hword := wordOfBytes_bytesOfWord e w
  cases e <;>
  · simp only [bytesOfWord] at hword
    simp only [bytesOfWord, List.cons_append, List.nil_append, decodeBytes, hword]
    cases decodeWord w <;> rfl

/-- Only one term that encodes as the zero word is not well formed: the shift that the decoder answers as `nop`. -/
theorem encode_sll_eq_zero {rd rt : Reg} {sa ign : BitVec 5} :
    encode (.sll rd rt sa ign) = 0#32 ↔ Instr.sll rd rt sa ign = .sll 0#5 0#5 0#5 0#5 := by
  rw [encode, wordR_eq_iff]
  constructor
  · rintro ⟨-, rfl, rfl, rfl, rfl, -⟩; rfl
  · intro h; cases h; decide

theorem decodeFields_encode_sll {rd rt : Reg} {sa ign : BitVec 5} (h : (Instr.sll rd rt sa ign).wellFormed = true) :
    decodeFields (encode (.sll rd rt sa ign)) = some (.sll rd rt sa ign) := by
  have hne : wordR 0#6 ign rt rd sa 0#6 ≠ 0#32 := by
    rw [Ne, ← show encode (.sll rd rt sa ign) = wordR 0#6 ign rt rd sa 0#6 from rfl, encode_sll_eq_zero]
    simpa [Instr.wellFormed] using h
  simp [encode, decodeFields, decodeSpecial, hne]

theorem opZ_and_copMask (high : BitVec 4) (z : CopNum) : opZ high z &&& 0x3c#6 = opZ high 0#2 := Laws.and_opZ high z

/-- The decoder follows the fixed fields of an encoded word to the arm that gives the instruction back. -/
theorem decodeFields_encode (h : i.wellFormed = true) : decodeFields (encode i) = some i := by
  cases i
  case sll => exact decodeFields_encode_sll h
  case lwcz z rt base offset =>
    rw [decodeFields_lwcz (by simp only [encode, fieldOp_wordI, opZ_and_copMask]; rfl)]
    simp [encode]
  case swcz z rt base offset =>
    rw [decodeFields_swcz (by simp only [encode, fieldOp_wordI, opZ_and_copMask]; rfl)]
    simp [encode]
  case bczt z offset | bczf z offset =>
    rw [decodeFields_cop (by simp only [encode, fieldOp_wordI, opZ_and_copMask]; rfl)]
    simp [encode, decodeCop]
  case mfcz z rt rd | mtcz z rt rd =>
    rw [decodeFields_cop (by simp only [encode, fieldOp_wordR, opZ_and_copMask]; rfl)]
    simp [encode, decodeCop]
  case rfe | nop | syscall => rfl
  all_goals
    simp [encode, decodeFields, decodeSpecial, decodeRegimm, decodeCop, decodeSingle, decodeDouble, decodeInteger]

/-- The zero word decodes to `nop`, so nothing decodes to the one term that is not well formed. -/
theorem wellFormed_of_decodeFields (h : decodeFields w = some i) : i.wellFormed = true := by
  by_contra hbad
  have hi : i = .sll 0#5 0#5 0#5 0#5 := by simpa [Instr.wellFormed] using hbad
  have hw : w = 0#32 := by rw [← encode_of_decodeFields h, hi]; rfl
  rw [hw, decodeFields_zero, hi] at h
  cases h

/-! ## The obligations -/

/-- Settles O1: the bytes make the word again, and the decoder follows its fixed fields back to the instruction. -/
theorem decodeOfEncode : Obligations.DecodeOfEncode := by
  intro e i rest hi
  rw [encodeBytes, decodeBytes_bytesOfWord, decodeWord_ok.2 (decodeFields_encode hi)]
  rfl

/-- Settles O2: every arm of the decoder keeps all fields, and none answers the shift that `nop` stands for. -/
theorem encodeOfDecode : Obligations.EncodeOfDecode :=
  fun _ _ h => ⟨encode_of_decodeFields (decodeWord_ok.1 h), wellFormed_of_decodeFields (decodeWord_ok.1 h)⟩

/-- Settles O5: fifteen closed words, each decoded by evaluation. -/
theorem sampleWordsDecode : Obligations.SampleWordsDecode := by
  unfold Obligations.SampleWordsDecode
  decide

/-- Settles O45: `break` has the one outcome `raise`, and its word is the `code` field above the six bits `0xD`. -/
theorem breakRaises : Obligations.BreakRaises := by
  refine fun n s => ⟨rfl, ?word, decodeWord_ok.2 (decodeFields_encode rfl)⟩
  rw [encode, wordS, BitVec.toNat_cast, toNat_append_add, toNat_append_add]
  simp

end Sys2Proof
end

section
/-! What an instruction can answer (10_state.md R24, R35; 60_exceptions.md R400, R406): every instruction is one of a few
updates of the state and a new `pc`, or it stops for a reason listed for it. The whole-machine rules read this off. -/

namespace Sys2Proof.Machine

open Sys2Proof.Claims

variable {s t u : State} {i : Instr} {r : Result} {c : Stop} {a : Word} {addrs : List Word}

/-! ## The updates and the stops -/

/-- What an instruction can do to the state apart from `pc`, and which instruction can do it (R35). -/
inductive Effect (i : Instr) (s : State) : State → Prop
  | none : Effect i s s
  | reg (rd : Reg) (v : Word) : Effect i s (s.writeReg rd v)
  | hiLo (h l : Word) (hi : writesHiLo i = true) : Effect i s (s.writeHiLo h l)
  | drawnHiLo (hi : writesHiLo i = true) : Effect i s (drawHiLo s)
  | cop (z : CopNum) (j : Reg) (v : Word) : Effect i s (s.writeCop z j v)
  | single (fd : Reg) (v : Word) (n : Nat) : Effect i s ((s.writeSingle fd v).afterDraws n)
  | double (fd : Reg) (v : DWord) (n : Nat) : Effect i s ((s.writeDouble fd v).afterDraws n)
  | flag (b : Bool) (hi : compares i = true) : Effect i s (s.writeFlag 1#2 b)
  | bytes (cells : List (Word × Byte)) (n : Nat) (hi : stores i = true) (hcode : i = .syscall → s.readReg 2#5 = 8#32)
      (hdata : writable s (cells.map Prod.fst)) : Effect i s ((s.writeBytes cells).afterDraws n)
  | lineBytes (cells : List (Word × Byte)) (n : Nat) (hi : i = .syscall) (hcode : s.readReg 2#5 = 8#32)
      (hdata : writable s (cells.map Prod.fst)) : Effect i s ((s.afterLine.writeBytes cells).afterDraws n)
  | status (hi : i = .rfe) : Effect i s s.restoreStatus
  | emit (e : OutputEvent) (hi : i = .syscall) : Effect i s (s.emit e)
  | wordReg (v : Word) (hi : i = .syscall) : Effect i s (s.afterWord.writeReg 2#5 v)
  | wordSingle (v : Word) (hi : i = .syscall) : Effect i s (s.afterWord.writeSingle 0#5 v)
  | double0 (v : DWord) (hi : i = .syscall) : Effect i s (s.afterDouble.writeDouble 0#5 v)
  | exit (hi : i = .syscall) (hcode : s.readReg 2#5 = 10#32) : Effect i s { s with ended := true }

theorem Effect.pc_eq (h : Effect i s u) : u.pc = s.pc := by cases h <;> simp [drawHiLo]

/-- Where an instruction can leave `pc` (R24, 44_branch_jump.md R215, R216, R242; R386). -/
inductive GoesOnAt (i : Instr) (s : State) : Word → Prop
  | next : GoesOnAt i s s.nextPc
  | branch (offset : BitVec 16) : GoesOnAt i s (branchTarget s offset)
  | far (field : BitVec 26) (hi : i = .j field ∨ i = .jal field) : GoesOnAt i s (jumpTarget s field)
  | register (rs : Reg) (hi : i = .jr rs ∨ ∃ rd, i = .jalr rd rs) : GoesOnAt i s (s.readReg rs)
  | stay (hi : i = .syscall) : GoesOnAt i s s.pc

/-- The reasons for which an instruction can stop (R400, R406). -/
def stopListed (i : Instr) (s : State) : Stop → Prop
  | .raises e => mayRaise i e
  | .refuses r =>
    refusedForm i s r ∨ (∃ a, r = .storeToText a ∧ stores i = true) ∨ (∃ a, r = .endlessString a ∧ i = .syscall)

/-- An outcome that is one of the updates, or one of the stops. -/
def Answers (i : Instr) (s : State) (r : Result) : Prop :=
  (∃ u p, r = .next (u.jump p) ∧ Effect i s u ∧ GoesOnAt i s p) ∨ ∃ c, r = stopWith c s ∧ stopListed i s c

/-! ## How the shared operations answer -/

theorem answers_next {p : Word} (h : Effect i s u) (hp : GoesOnAt i s p) : Answers i s (.next (u.jump p)) :=
  .inl ⟨u, p, rfl, h, hp⟩

/-- An instruction that has its effect moves on. -/
theorem answers_done (h : Effect i s u) : Answers i s (done u) := by
  have hp : u.nextPc = s.nextPc := by simp [State.nextPc, h.pc_eq]
  rw [done, hp]
  exact answers_next h .next

theorem answers_stop (h : stopListed i s c) : Answers i s (stopWith c s) := .inr ⟨c, rfl, h⟩

theorem answers_raise {e : Exception} (h : mayRaise i e) : Answers i s (raise e s) := answers_stop (c := .raises e) h

theorem answers_refuse {e : Refusal} (h : refusedForm i s e) : Answers i s (.refused e) :=
  answers_stop (c := .refuses e) (.inl h)

/-- A checked operation: its checks name listed stops, and past them it answers. -/
theorem answers_unlessStop {c : Option Stop} (hc : ∀ stop, c = some stop → stopListed i s stop)
    (h : c = none → Answers i s r) : Answers i s (unlessStop c s r) := by
  cases hcase : c with
  | none => exact h hcase
  | some stop => exact answers_stop (hc stop hcase)

/-- The two exceptions of a read (20_memory.md R56, R59). -/
theorem readStop_some {align : Nat} (h : readStop s align a addrs = some c) :
    (c = .raises (.addressError a) ∧ align ≠ 1) ∨ c = .raises (.busError a) := by
  unfold readStop at h
  split_ifs at h with hmis <;> cases h
  · refine .inl ⟨rfl, fun h1 => hmis ?_⟩
    rw [h1, Nat.mod_one]
  · exact .inr rfl

/-- A write stops as a read does, or at program text (R61). -/
theorem writeStop_some {align : Nat} (h : writeStop s align a addrs = some c) :
    (c = .raises (.addressError a) ∧ align ≠ 1) ∨ c = .raises (.busError a) ∨ c = .refuses (.storeToText a) := by
  unfold writeStop at h
  split at h
  case h_1 stop hread =>
    cases h
    exact (readStop_some hread).imp_right .inl
  case h_2 =>
    split_ifs at h
    cases h
    exact .inr (.inr rfl)

theorem answers_readStop {align : Nat} (halign : align ≠ 1 → mayRaise i (.addressError a)) (hbus : mayRaise i (.busError a))
    (h : Answers i s r) : Answers i s (unlessStop (readStop s align a addrs) s r) := by
  refine answers_unlessStop (fun stop hstop => ?_) fun _ => h
  obtain ⟨rfl, hne⟩ | rfl := readStop_some hstop
  · exact halign hne
  · exact hbus

theorem answers_loadReg {kind : LoadKind} {align : Nat} {rt : Reg} (halign : align ≠ 1 → mayRaise i (.addressError a))
    (hbus : mayRaise i (.busError a)) : Answers i s (loadReg kind align a rt done s) :=
  answers_readStop halign hbus (answers_done (.reg ..))

theorem answers_storeCells {align : Nat} {cells : List (Word × Byte)} (hi : stores i = true) (hne : i ≠ .syscall)
    (halign : align ≠ 1 → mayRaise i (.addressError a)) (hbus : mayRaise i (.busError a)) :
    Answers i s (storeCells align a cells done s) := by
  refine answers_unlessStop (fun stop hstop => ?_) fun hnone => ?_
  · obtain ⟨rfl, hne⟩ | rfl | rfl := writeStop_some hstop
    · exact halign hne
    · exact hbus
    · exact .inr (.inl ⟨a, rfl, hi⟩)
  · obtain ⟨-, hdata⟩ := (writeStop_none _ _ _).1 hnone
    exact answers_done (.bytes cells 0 hi (fun h => absurd h hne) hdata)

theorem answers_setRegOrOverflow {rd : Reg} {x : Int} (h : mayRaise i .overflow) :
    Answers i s (setRegOrOverflow rd x done s) := by
  unfold setRegOrOverflow
  split
  · exact answers_raise h
  · exact answers_done (.reg ..)

theorem answers_divideSigned {x y : Word} (hi : writesHiLo i = true) (h : mayRaise i .overflow) :
    Answers i s (divideSigned x y done s) := by
  unfold divideSigned
  split_ifs
  · exact answers_done (.drawnHiLo hi)
  · exact answers_raise h
  · exact answers_done (.hiLo _ _ hi)

theorem answers_divideUnsigned {x y : Word} (hi : writesHiLo i = true) : Answers i s (divideUnsigned x y done s) := by
  unfold divideUnsigned
  split_ifs
  · exact answers_done (.drawnHiLo hi)
  · exact answers_done (.hiLo _ _ hi)

theorem answers_branch {b : Bool} {offset : BitVec 16} (h : Effect i s u) :
    Answers i s (.next (u.jump (if b then branchTarget s offset else s.nextPc))) := by
  cases b
  · exact answers_next h .next
  · exact answers_next h (.branch offset)

theorem answers_linkingBranch {rel : Relation} {rs : Reg} {offset : BitVec 16}
    (hi : rs = 31#5 → refusedForm i s .linkSourceIsLink) : Answers i s (linkingBranch rel rs offset s) := by
  unfold linkingBranch
  split_ifs with hrs
  · exact answers_refuse (hi hrs)
  · exact answers_branch (offset := offset) (.reg 31#5 s.nextPc)

theorem answers_branchOnFlag {z : CopNum} {value : Bool} {offset : BitVec 16}
    (hi : z ≠ 1#2 → refusedForm i s (.conditionFlagUnspecified z)) : Answers i s (branchOnFlag z value offset s) := by
  unfold branchOnFlag
  split_ifs with hz
  · exact answers_refuse (hi hz)
  · exact answers_branch .none

/-- An odd register is a reason to refuse a floating-point form (48_floating_point.md R320). -/
theorem oddReg_iff (q : Reg) : oddReg q = true ↔ q.toNat % 2 = 1 := by
  rw [oddReg, BitVec.getLsbD, Nat.testBit_zero, decide_eq_true_iff]

theorem evenStop_floatRegisters : evenStop (floatRegisters i) = none ↔ allEven i := by
  rw [evenStop_none, allEven]
  refine forall₂_congr fun q _ => ?_
  rw [← Bool.not_eq_true, oddReg_iff]
  omega

theorem evenStop_of_allEven {l : List Reg} (hl : floatRegisters i = l) (h : allEven i) : evenStop l = none :=
  hl ▸ evenStop_floatRegisters.2 h

theorem answers_evenStop {l : List Reg} (hl : floatRegisters i = l) (h : Answers i s r) :
    Answers i s (unlessStop (evenStop l) s r) := by
  refine answers_unlessStop (fun stop hstop => ?_) fun _ => h
  have hodd : ¬ allEven i := fun heven => by simp [evenStop_of_allEven hl heven] at hstop
  unfold evenStop at hstop
  split_ifs at hstop
  cases hstop
  exact .inl (.inr (.inr (.inr (.inl ⟨hodd, rfl⟩))))

theorem effect_settleSingle (fd : Reg) (result : Option Word) : Effect i s (settleSingle fd result s) := by
  cases result
  · exact .single fd _ 1
  · exact .single fd _ 0

theorem effect_settleDouble (fd : Reg) (result : Option DWord) : Effect i s (settleDouble fd result s) := by
  cases result
  · exact .double fd _ 1
  · exact .double fd _ 0

theorem effect_settleInteger (fd : Reg) (result : Option Word) : Effect i s (settleInteger fd result s) := by
  cases result
  · exact .single fd _ 1
  · exact .single fd _ 0

/-! ## The services of `syscall` -/

/-- Service 4 stops at a byte that is not allocated, or at the end of its fuel (49_exception_trap_syscall.md R381). -/
theorem stringAt_error {start : Word} {fuel : Nat} (h : stringAt s start fuel a = .error c) :
    (∃ x, c = .raises (.busError x)) ∨ c = .refuses (.endlessString start) := by
  induction fuel generalizing a with
  | zero => cases h; exact .inr rfl
  | succ fuel ih =>
    unfold stringAt at h
    split_ifs at h
    · cases h
      exact .inl ⟨a, rfl⟩
    · split at h
      case h_1 => cases h
      case h_2 stop hstop => cases h; exact ih hstop

theorem answers_printString : Answers .syscall s (printString s) := by
  unfold printString
  split
  case h_1 => exact answers_done (.emit _ rfl)
  case h_2 stop hstop =>
    obtain ⟨x, rfl⟩ | rfl := stringAt_error hstop
    · exact answers_raise (.inr (.inr rfl))
    · exact answers_stop (.inr (.inr ⟨_, rfl, rfl⟩))

/-- Service 8 stops at the first byte of its buffer that is not data, and past its check all of them are (R385). -/
theorem bufferStop_some {n : Nat} (h : bufferStop s n a = some c) :
    (∃ x, c = .raises (.busError x)) ∨ ∃ x, c = .refuses (.storeToText x) := by
  induction n generalizing a with
  | zero => cases h
  | succ n ih =>
    unfold bufferStop at h
    split at h
    case h_1 => cases h; exact .inl ⟨a, rfl⟩
    case h_2 => cases h; exact .inr ⟨a, rfl⟩
    case h_3 => exact ih h

theorem bufferStop_none {n : Nat} : bufferStop s n a = none ↔ writable s (bytesFrom a n) := by
  induction n generalizing a with
  | zero => simp [bufferStop, writable]
  | succ n ih =>
    rw [bufferStop, bytesFrom_succ, writable, List.forall_mem_cons, ← writable, ← ih]
    cases s.classAt a <;> simp

/-- The buffer of service 8 is as long as what fills it, or longer. -/
theorem writable_zip {addrs : List Word} {bs : List Byte} (h : writable s addrs) :
    writable s ((addrs.zip bs).map Prod.fst) := by
  intro x hx
  obtain ⟨⟨y, b⟩, hmem, rfl⟩ := List.mem_map.1 hx
  exact h y (List.of_mem_zip hmem).1

theorem answers_readString (hcode : s.readReg 2#5 = 8#32) : Answers .syscall s (readString s) := by
  unfold readString
  dsimp only
  split
  · exact answers_done .none
  · refine answers_unlessStop (fun stop hstop => ?_) fun hnone => ?_
    · obtain ⟨x, rfl⟩ | ⟨x, rfl⟩ := bufferStop_some hstop
      · exact .inr (.inr rfl)
      · exact .inr (.inl ⟨x, rfl, rfl⟩)
    · have hdata := bufferStop_none.1 hnone
      split_ifs with hone
      · rw [hone] at hdata
        exact answers_done (.bytes _ _ rfl (fun _ => hcode) (writable_zip hdata))
      · unfold fillBuffer
        rw [State.afterLine_readReg]
        exact answers_done (.lineBytes _ _ rfl hcode (writable_zip hdata))

theorem answers_service {code : Word} (hcode : s.readReg 2#5 = code) : Answers .syscall s (service code s) := by
  unfold service
  split
  · exact answers_done (.emit _ rfl)
  · exact answers_done (.emit _ rfl)
  · exact answers_done (.emit _ rfl)
  · exact answers_printString
  · exact answers_done (.wordReg _ rfl)
  · exact answers_done (.wordSingle _ rfl)
  · exact answers_done (.double0 _ rfl)
  · exact answers_readString hcode
  · exact answers_next (.exit rfl hcode) (.stay rfl)
  · exact answers_done (.emit _ rfl)
  · exact answers_done (.wordReg _ rfl)
  · exact answers_raise rfl

/-! ## Every instruction -/

/-- Every instruction answers with one of the updates or stops for a listed reason. -/
theorem exec_answers (i : Instr) (s : State) : Answers i s (exec i s) := by
  cases i
  case addu | addiu | subu | and | andi | nor | or | ori | xor | xori | sll | sllv | sra | srav | srl | srlv | lui | slt
      | sltu | slti | sltiu | mfhi | mflo | mfcz =>
    exact answers_done (.reg ..)
  case add | addi | sub => exact answers_setRegOrOverflow (by simp [mayRaise])
  case mult | multu | mthi | mtlo => exact answers_done (.hiLo _ _ rfl)
  case div => exact answers_divideSigned rfl (by simp [mayRaise])
  case divu => exact answers_divideUnsigned rfl
  case beq | bne | bgez | bgtz | blez | bltz => exact answers_branch .none
  case bgezal | bltzal => exact answers_linkingBranch fun h => by simp [refusedForm, h]
  case bczt | bczf => exact answers_branchOnFlag fun h => by simp [refusedForm, h]
  case j field => exact answers_next .none (.far field (.inl rfl))
  case jal field => exact answers_next (.reg ..) (.far field (.inr rfl))
  case jr rs => exact answers_next .none (.register rs (.inl rfl))
  case jalr rd rs =>
    simp only [exec, execJalr]
    split_ifs with h
    · exact answers_refuse (by simp [refusedForm, h])
    · exact answers_next (.reg ..) (.register rs (.inr ⟨rd, rfl⟩))
  case lb | lbu | lh | lhu | lw => exact answers_loadReg (by simp [mayRaise, LoadKind.size]) (by simp [mayRaise])
  case lwcz => exact answers_readStop (by simp [mayRaise]) (by simp [mayRaise]) (answers_done (.cop ..))
  case lwl | lwr => exact answers_readStop (by simp) (by simp [mayRaise]) (answers_done (.reg ..))
  case sb | sh | sw | swcz | swl | swr =>
    exact answers_storeCells rfl (by simp) (by simp [mayRaise, StoreKind.size]) (by simp [mayRaise])
  case mtcz => exact answers_done (.cop ..)
  case absD | addD | cvtDS | cvtDW | divD | mulD | negD | subD =>
    exact answers_evenStop rfl (answers_done (effect_settleDouble ..))
  case absS | addS | cvtSD | cvtSW | divS | mulS | negS | subS =>
    exact answers_evenStop rfl (answers_done (effect_settleSingle ..))
  case cvtWD | cvtWS => exact answers_evenStop rfl (answers_done (effect_settleInteger ..))
  case cEqD | cEqS | cLeD | cLeS | cLtD | cLtS => exact answers_evenStop rfl (answers_done (.flag _ rfl))
  case movD => exact answers_evenStop rfl (answers_done (.double _ _ 0))
  case movS => exact answers_evenStop rfl (answers_done (.single _ _ 0))
  case rfe =>
    rw [exec_rfe]
    cases h : s.cfg.statusRestore with
    | notSupplied =>
      rw [returnFromException_notSupplied done h]
      exact answers_refuse (by simp [refusedForm, h])
    | supplied =>
      rw [(returnFromException_next done).2 ⟨h, rfl⟩]
      exact answers_next (.status rfl) .next
  case syscall => exact answers_service rfl
  case brk => exact answers_raise rfl
  case nop => exact answers_done .none

/-- An instruction that completes is one of the updates and a new `pc`. -/
theorem effect_of_exec (h : exec i s = .next t) : ∃ u p, t = u.jump p ∧ Effect i s u ∧ GoesOnAt i s p := by
  obtain ⟨u, p, hr, hu, hp⟩ | ⟨c, hr, -⟩ := exec_answers i s
  · exact ⟨u, p, Host.Outcome.next.inj (h.symm.trans hr), hu, hp⟩
  · exact absurd (hr.symm.trans h) (stopWith_ne_next c)

/-- An instruction that faults has stopped by a listed exception. -/
theorem mayRaise_of_exec {f : Fault} (h : exec i s = .fault f) : ∃ e, f = .raised e s.pc ∧ mayRaise i e := by
  obtain ⟨u, p, hr, -⟩ | ⟨c, hr, hc⟩ := exec_answers i s
  · cases h.symm.trans hr
  · cases c with
    | raises e => exact ⟨e, Host.Outcome.fault.inj (h.symm.trans hr), hc⟩
    | refuses e => cases h.symm.trans hr

/-- An instruction that is refused is so for a listed reason. -/
theorem stopListed_of_refused {e : Refusal} (h : exec i s = .refused e) : stopListed i s (.refuses e) := by
  obtain ⟨u, p, hr, -⟩ | ⟨c, hr, hc⟩ := exec_answers i s
  · cases h.symm.trans hr
  · cases c with
    | raises e => cases h.symm.trans hr
    | refuses e' =>
      cases Host.Outcome.refused.inj (h.symm.trans hr)
      exact hc

end Sys2Proof.Machine
end

section
/-! What a pseudoinstruction can answer (10_state.md R38; 60_exceptions.md R406): one of a few updates, the draw of `x[1]`
and a new `pc`, or a stop. Both whole-machine rules about pseudoinstructions and their frames read this off. -/

namespace Sys2Proof.Machine

open Sys2Proof.Claims

variable {s t u : State} {len : Nat} {p : Pseudo} {r : Result} {c : Stop} {a : Word} {addrs : List Word}
  {dests : List Reg}

/-! ## The updates and the stops -/

/-- What a pseudoinstruction can do to the state apart from `x[1]` and `pc` (R38). -/
inductive PseudoEffect (p : Pseudo) (s : State) : State → Prop
  | none (hp : pseudoUsesHiLo p = false) : PseudoEffect p s s
  | reg (rd : Reg) (v : Word) (hrd : rd ∈ pseudoDests p) (hp : pseudoUsesHiLo p = false) : PseudoEffect p s (s.writeReg rd v)
  | regPair (q q' : Reg) (v v' : Word) (hq : q ∈ pseudoDests p) (hq' : q' ∈ pseudoDests p) (hp : pseudoUsesHiLo p = false) :
      PseudoEffect p s ((s.writeReg q v).writeReg q' v')
  | throughHiLo (rd : Reg) (v : Word) (hrd : rd ∈ pseudoDests p) (hp : pseudoUsesHiLo p = true) :
      PseudoEffect p s (drawHiLo (s.writeReg rd v))
  | hiLo (h l : Word) (op : HiLoOp) (q : Reg) (x : Int) (hp : p = .generalHiLo op q x) : PseudoEffect p s (s.writeHiLo h l)
  | drawnHiLo (op : HiLoOp) (q : Reg) (x : Int) (hp : p = .generalHiLo op q x) : PseudoEffect p s (drawHiLo s)
  | cop (z : CopNum) (j : Reg) (v : Word) (hp : pseudoUsesHiLo p = false) : PseudoEffect p s (s.writeCop z j v)
  | double (j : Reg) (v : DWord) (hp : pseudoUsesHiLo p = false) : PseudoEffect p s (s.writeDouble j v)
  | bytes (cells : List (Word × Byte)) (hstores : pseudoStores p = true) (hp : pseudoUsesHiLo p = false)
      (hdata : writable s (cells.map Prod.fst)) : PseudoEffect p s (s.writeBytes cells)

/-- The reasons for which a pseudoinstruction can stop: any exception, but only the refusals of R406. -/
def pseudoStopListed (p : Pseudo) : Stop → Prop
  | .raises _ => True
  | .refuses r => r ∈ pseudoRefusals p ∨ ∃ a, r = .storeToText a ∧ pseudoStores p = true

/-- An outcome that is one of the updates, with `x[1]` drawn and `pc` moved, or one of the stops. -/
def PseudoAnswers (len : Nat) (p : Pseudo) (s : State) (r : Result) : Prop :=
  (∃ u q, r = .next ((scratchAt (pseudoDests p) u).jump q) ∧ PseudoEffect p s u ∧
      (q = s.nextStatement len ∨ pseudoLabel p = some q)) ∨
    ∃ c, r = stopWith c s ∧ pseudoStopListed p c

theorem PseudoEffect.pc_eq (h : PseudoEffect p s u) : u.pc = s.pc := by cases h <;> simp [drawHiLo]

/-! ## The check of the form (R406) -/

theorem pairStop_eq (q : Reg) :
    pairStop q = (([q].filter (fun q => q = 31#5)).map fun _ => Refusal.pairRegister31).head?.map .refuses := by
  by_cases h : q = 31#5 <;> simp [pairStop, h]

theorem evenStop_eq (q : Reg) :
    evenStop [q] = (([q].filter (fun q => q.toNat % 2 = 1)).map fun _ => Refusal.oddFloatRegister).head?.map .refuses := by
  have hodd := oddReg_iff q
  by_cases h : q.toNat % 2 = 1
  · simp [evenStop, hodd.2 h, h]
  · simp [evenStop, mt hodd.1 h, h]

theorem constantStop_eq (x : Int) :
    constantStop x =
      (([x].filter (fun x => x < -2147483648 ∨ 4294967295 < x)).map Refusal.constantOutOfRange).head?.map .refuses := by
  have hrange : constantInRange x = true ↔ ¬ (x < -2147483648 ∨ 4294967295 < x) := by
    simp only [constantInRange, Bool.and_eq_true, decide_eq_true_eq]
    omega
  by_cases h : x < -2147483648 ∨ 4294967295 < x
  · simp [constantStop, mt hrange.1 (not_not.2 h), h]
  · simp [constantStop, hrange.2 h, h]

theorem firstStop_head? (l l' : List Refusal) :
    firstStop (l.head?.map .refuses) (l'.head?.map .refuses) = (l ++ l').head?.map Stop.refuses := by
  cases l <;> rfl

/-- The check of the form finds the first of the refusals R406 lists for it. -/
theorem formStop_eq (p : Pseudo) : formStop p = (pseudoRefusals p).head?.map .refuses := by
  have haddress (x : Address) : addressStop x = match x with
      | .absolute value => constantStop value
      | .indexed offset _ => constantStop offset := by cases x <;> rfl
  have hsrc2 (x : Src2) : src2Stop x = match x with
      | .reg _ => none
      | .const c => constantStop c := by cases x <;> rfl
  cases p with
  | ld q x | sd q x | lD q x | lS q x | sD q x | sS q x =>
    cases x <;>
      simp only [formStop, haddress, constantStop_eq, pairStop_eq, evenStop_eq, firstStop_head?] <;>
      simp [pseudoRefusals, pseudoPair, pseudoFloatRegisters, pseudoConstants]
  | mfc1D q f =>
    simp only [formStop, pairStop_eq, evenStop_eq, firstStop_head?]
    simp [pseudoRefusals, pseudoPair, pseudoFloatRegisters, pseudoConstants]
  | mulDiv _ _ _ x | rol _ _ x | ror _ _ x | set _ _ _ x | branch _ _ x _ =>
    cases x <;>
      simp only [formStop, hsrc2, constantStop_eq] <;>
      simp [pseudoRefusals, pseudoPair, pseudoFloatRegisters, pseudoConstants, constantOf]
  | la _ x | ulh _ x | ulhu _ x | ulw _ x | ush _ x | usw _ x | generalLoad _ _ x | generalLoadPartial _ _ x
  | generalLoadCop _ _ x | generalStore _ _ x | generalStorePartial _ _ x | generalStoreCop _ _ x =>
    cases x <;>
      simp only [formStop, haddress, constantStop_eq] <;>
      simp [pseudoRefusals, pseudoPair, pseudoFloatRegisters, pseudoConstants]
  | li _ x | generalAlu _ _ _ x | generalHiLo _ _ x =>
    simp only [formStop, constantStop_eq]
    simp [pseudoRefusals, pseudoPair, pseudoFloatRegisters, pseudoConstants]
  | unary | b | beqz | bnez => simp [formStop, pseudoRefusals, pseudoPair, pseudoFloatRegisters, pseudoConstants]

theorem formStop_some (h : formStop p = some c) : ∃ r ∈ pseudoRefusals p, c = .refuses r := by
  rw [formStop_eq, Option.map_eq_some_iff] at h
  obtain ⟨r, hr, rfl⟩ := h
  exact ⟨r, List.mem_of_mem_head? hr, rfl⟩

theorem formStop_of_refusals (h : pseudoRefusals p ≠ []) : ∃ r ∈ pseudoRefusals p, formStop p = some (.refuses r) := by
  obtain ⟨r, l, hl⟩ := List.exists_cons_of_ne_nil h
  refine ⟨r, ?_, ?_⟩
  · rw [hl]; exact List.mem_cons_self
  · rw [formStop_eq, hl]; rfl

/-! ## How the shared operations answer -/

theorem pseudoAnswers_end (hd : pseudoDests p = dests) (h : PseudoEffect p s u) :
    PseudoAnswers len p s (endPseudo len dests u) := by
  have hq : u.nextStatement len = s.nextStatement len := by simp [State.nextStatement, h.pc_eq]
  rw [endPseudo, hq, ← hd]
  exact .inl ⟨u, _, rfl, h, .inl rfl⟩

theorem pseudoAnswers_branch {b : Bool} {label : Word} (hd : pseudoDests p = []) (hl : pseudoLabel p = some label)
    (hp : pseudoUsesHiLo p = false) : PseudoAnswers len p s (endBranch len b label s) := by
  rw [endBranch, ← hd]
  refine .inl ⟨s, _, rfl, .none hp, ?_⟩
  cases b
  · exact .inl rfl
  · exact .inr hl

theorem pseudoAnswers_raise (e : Exception) : PseudoAnswers len p s (raise e s) := .inr ⟨.raises e, rfl, trivial⟩

theorem pseudoAnswers_unlessStop {c : Option Stop} (hc : ∀ stop, c = some stop → pseudoStopListed p stop)
    (h : c = none → PseudoAnswers len p s r) : PseudoAnswers len p s (unlessStop c s r) := by
  cases hcase : c with
  | none => exact h hcase
  | some stop => exact .inr ⟨stop, rfl, hc stop hcase⟩

theorem pseudoStopListed_readStop {align : Nat} (h : readStop s align a addrs = some c) : pseudoStopListed p c := by
  obtain ⟨rfl, -⟩ | rfl := readStop_some h <;> trivial

theorem pseudoStopListed_writeStop {align : Nat} (hp : pseudoStores p = true) (h : writeStop s align a addrs = some c) :
    pseudoStopListed p c := by
  obtain ⟨rfl, -⟩ | rfl | rfl := writeStop_some h
  · trivial
  · trivial
  · exact .inr ⟨a, rfl, hp⟩

theorem firstStop_some {c d : Option Stop} {stop : Stop} (h : firstStop c d = some stop) : c = some stop ∨ d = some stop := by
  cases c
  · exact .inr h
  · exact .inl h

theorem pseudoAnswers_read {align : Nat} (h : PseudoAnswers len p s r) :
    PseudoAnswers len p s (unlessStop (readStop s align a addrs) s r) :=
  pseudoAnswers_unlessStop (fun _ => pseudoStopListed_readStop) fun _ => h

theorem pseudoAnswers_readPair (h : PseudoAnswers len p s r) :
    PseudoAnswers len p s (unlessStop (readPairStop s a) s r) := by
  refine pseudoAnswers_unlessStop (fun stop hstop => ?_) fun _ => h
  exact (firstStop_some hstop).elim pseudoStopListed_readStop pseudoStopListed_readStop

theorem pseudoAnswers_storeCells {align : Nat} {cells : List (Word × Byte)} (hd : pseudoDests p = [])
    (hs : pseudoStores p = true) (hp : pseudoUsesHiLo p = false) :
    PseudoAnswers len p s (storeCells align a cells (endPseudo len []) s) := by
  refine pseudoAnswers_unlessStop (fun _ => pseudoStopListed_writeStop hs) fun hnone => ?_
  obtain ⟨-, hdata⟩ := (writeStop_none _ _ _).1 hnone
  exact pseudoAnswers_end hd (.bytes cells hs hp hdata)

theorem pseudoAnswers_storeUnaligned {kind : StoreKind} {v : Word} (hd : pseudoDests p = [])
    (hs : pseudoStores p = true) (hp : pseudoUsesHiLo p = false) :
    PseudoAnswers len p s (storeUnaligned kind a v (endPseudo len []) s) := by
  refine pseudoAnswers_unlessStop (fun stop hstop => ?_) fun hnone => ?_
  · exact (firstStop_some hstop).elim (pseudoStopListed_writeStop hs) (pseudoStopListed_writeStop hs)
  · exact pseudoAnswers_end hd (.bytes _ hs hp ((unalignedWriteStop_none _ _ _).1 hnone))

theorem writeBytes_append (s : State) (cells cells' : List (Word × Byte)) :
    s.writeBytes (cells ++ cells') = (s.writeBytes cells).writeBytes cells' := by
  induction cells generalizing s with
  | nil => rfl
  | cons c rest ih => exact ih _

theorem writePairStop_none (h : writePairStop s a = none) : writable s (bytesFrom a 4 ++ bytesFrom (a + 4#32) 4) := by
  obtain ⟨hlow, hhigh⟩ := (firstStop_none _ _).1 h
  obtain ⟨-, hlow⟩ := (writeStop_none _ _ _).1 hlow
  obtain ⟨-, hhigh⟩ := (writeStop_none _ _ _).1 hhigh
  exact List.forall_mem_append.2 ⟨hlow, hhigh⟩

theorem pseudoAnswers_storePair {v w : Word} (hd : pseudoDests p = []) (hs : pseudoStores p = true)
    (hp : pseudoUsesHiLo p = false) : PseudoAnswers len p s (storePair a v w (endPseudo len []) s) := by
  refine pseudoAnswers_unlessStop (fun stop hstop => ?_) fun hnone => ?_
  · exact (firstStop_some hstop).elim (pseudoStopListed_writeStop hs) (pseudoStopListed_writeStop hs)
  · rw [← writeBytes_append]
    refine pseudoAnswers_end hd (.bytes _ hs hp ?_)
    rw [List.map_append, wordCells_addresses, wordCells_addresses]
    exact writePairStop_none hnone

theorem pseudoAnswers_setRegOrOverflow {rd : Reg} {x : Int} {fin : State → Result}
    (h : ∀ v, PseudoAnswers len p s (fin (s.writeReg rd v))) : PseudoAnswers len p s (setRegOrOverflow rd x fin s) := by
  unfold setRegOrOverflow
  split
  · exact pseudoAnswers_raise _
  · exact h _

/-- `abs`, `neg`, `negu`, `not`, `move` write their result, or raise. -/
theorem pseudoAnswers_unary {op : UnaryOp} {rd : Reg} {x : Word} {fin : State → Result}
    (h : ∀ v, PseudoAnswers len p s (fin (s.writeReg rd v))) : PseudoAnswers len p s (pseudoUnary op rd x fin s) := by
  cases op
  case abs | neg => exact pseudoAnswers_setRegOrOverflow h
  case negu | not | move => exact h _

/-- The multiply, divide and remainder pseudoinstructions write their result, or raise. -/
theorem pseudoAnswers_mulDiv {op : MulDivOp} {rd : Reg} {x y : Word} {fin : State → Result}
    (h : ∀ v, PseudoAnswers len p s (fin (s.writeReg rd v))) : PseudoAnswers len p s (pseudoMulDiv op rd x y fin s) := by
  cases op
  case mul => exact h _
  case mulo => exact pseudoAnswers_setRegOrOverflow h
  case mulou | divu | remu =>
    simp only [pseudoMulDiv]
    split_ifs
    exacts [pseudoAnswers_raise _, h _]
  case div | rem =>
    simp only [pseudoMulDiv]
    split_ifs
    exacts [pseudoAnswers_raise _, pseudoAnswers_raise _, h _]

/-- The general forms of the operations of one result write it, or raise. -/
theorem pseudoAnswers_general {op : AluOp} {rd : Reg} {x y : Word} {fin : State → Result}
    (h : ∀ v, PseudoAnswers len p s (fin (s.writeReg rd v))) : PseudoAnswers len p s (generalOperation op rd x y fin s) := by
  cases op
  case add | sub => exact pseudoAnswers_setRegOrOverflow h
  all_goals exact h _

theorem pseudoAnswers_generalHiLo {op op' : HiLoOp} {q : Reg} {x : Int} {v w : Word} (hp : p = .generalHiLo op q x) :
    PseudoAnswers len p s (generalHiLoOperation op' v w (endPseudo len []) s) := by
  have hd : pseudoDests p = [] := by rw [hp]; rfl
  have hdrawn : PseudoAnswers len p s (endPseudo len [] (drawHiLo s)) := pseudoAnswers_end hd (.drawnHiLo op q x hp)
  have hset (h l : Word) : PseudoAnswers len p s (endPseudo len [] (s.writeHiLo h l)) :=
    pseudoAnswers_end hd (.hiLo h l op q x hp)
  cases op'
  case mult | multu => exact hset _ _
  case div =>
    simp only [generalHiLoOperation, divideSigned]
    split_ifs
    · exact hdrawn
    · exact pseudoAnswers_raise _
    · exact hset _ _
  case divu =>
    simp only [generalHiLoOperation, divideUnsigned]
    split_ifs
    · exact hdrawn
    · exact hset _ _

/-! ## Every pseudoinstruction -/

/-- A pseudoinstruction whose form has a meaning answers with one of the updates or stops. -/
theorem pseudoEffect_answers (len : Nat) (p : Pseudo) (s : State) : PseudoAnswers len p s (pseudoEffect len p s) := by
  cases p
  case unary => exact pseudoAnswers_unary fun _ => pseudoAnswers_end rfl (.reg _ _ (List.mem_singleton_self _) rfl)
  case mulDiv => exact pseudoAnswers_mulDiv fun _ => pseudoAnswers_end rfl (.throughHiLo _ _ (List.mem_singleton_self _) rfl)
  case rol | ror | li | set | la => exact pseudoAnswers_end rfl (.reg _ _ (List.mem_singleton_self _) rfl)
  case b | beqz | bnez | branch => exact pseudoAnswers_branch rfl rfl rfl
  case ld =>
    exact pseudoAnswers_readPair (pseudoAnswers_end rfl (.regPair _ _ _ _ List.mem_cons_self (by simp [pseudoDests]) rfl))
  case mfc1D => exact pseudoAnswers_end rfl (.regPair _ _ _ _ List.mem_cons_self (by simp [pseudoDests]) rfl)
  case sd => exact pseudoAnswers_storePair rfl rfl rfl
  case ulh | ulhu | ulw | generalLoad | generalLoadPartial =>
    exact pseudoAnswers_read (pseudoAnswers_end rfl (.reg _ _ (List.mem_singleton_self _) rfl))
  case ush | usw => exact pseudoAnswers_storeUnaligned rfl rfl rfl
  case lD => exact pseudoAnswers_readPair (pseudoAnswers_end rfl (.double _ _ rfl))
  case lS | generalLoadCop => exact pseudoAnswers_read (pseudoAnswers_end rfl (.cop _ _ _ rfl))
  case sD =>
    simp only [pseudoEffect, pseudoSdFloat]
    cases s.cfg.endian <;> exact pseudoAnswers_storePair rfl rfl rfl
  case sS | generalStore | generalStorePartial | generalStoreCop => exact pseudoAnswers_storeCells rfl rfl rfl
  case generalAlu => exact pseudoAnswers_general fun _ => pseudoAnswers_end rfl (.reg _ _ (List.mem_singleton_self _) rfl)
  case generalHiLo => exact pseudoAnswers_generalHiLo rfl

/-- Every pseudoinstruction answers with one of the updates or stops for a listed reason. -/
theorem execPseudo_answers (len : Nat) (p : Pseudo) (s : State) : PseudoAnswers len p s (execPseudo len p s) := by
  refine pseudoAnswers_unlessStop (fun stop hstop => ?_) fun _ => pseudoEffect_answers len p s
  obtain ⟨r, hr, rfl⟩ := formStop_some hstop
  exact .inl hr

/-- A pseudoinstruction that completes is one of the updates, the draw of `x[1]` and a new `pc`. -/
theorem effect_of_execPseudo (h : execPseudo len p s = .next t) :
    ∃ u q, t = (scratchAt (pseudoDests p) u).jump q ∧ PseudoEffect p s u ∧
      (q = s.nextStatement len ∨ pseudoLabel p = some q) := by
  obtain ⟨u, q, hr, hu, hq⟩ | ⟨c, hr, -⟩ := execPseudo_answers len p s
  · exact ⟨u, q, Host.Outcome.next.inj (h.symm.trans hr), hu, hq⟩
  · exact absurd (hr.symm.trans h) (stopWith_ne_next c)

/-- A pseudoinstruction that is refused is so for a listed reason. -/
theorem pseudoStopListed_of_refused {e : Refusal} (h : execPseudo len p s = .refused e) :
    pseudoStopListed p (.refuses e) := by
  obtain ⟨u, q, hr, -⟩ | ⟨c, hr, hc⟩ := execPseudo_answers len p s
  · cases h.symm.trans hr
  · cases c with
    | raises e => cases h.symm.trans hr
    | refuses e' =>
      cases Host.Outcome.refused.inj (h.symm.trans hr)
      exact hc

end Sys2Proof.Machine
end

section
/-! The whole-machine rules (10_state.md R24 to R38, 20_memory.md R61, R65, 60_exceptions.md R400 to R406): each is read off
the updates an instruction or a pseudoinstruction can make. -/

namespace Sys2Proof.Machine

open Sys2Proof.Claims

variable {s t u : State} {i : Instr} {p : Pseudo} {len : Nat} {a : Word}

/-! ## What each update of an instruction keeps -/

theorem Effect.cfg_eq (h : Effect i s u) : u.cfg = s.cfg := by cases h <;> simp [drawHiLo]

theorem Effect.memory_wf (h : Effect i s u) (hwf : Memory.wf s.mem = true) : Memory.wf u.mem = true := by
  cases h
  case bytes cells n hi hcode hdata => exact writeBytes_wf s cells hwf
  case lineBytes cells n hi hcode hdata => exact writeBytes_wf s.afterLine cells (by simpa using hwf)
  all_goals simpa [drawHiLo] using hwf

theorem Effect.regs_zero (h : Effect i s u) : u.regs[0] = s.regs[0] := by
  cases h
  case reg rd v => exact writeReg_regs_zero s rd v
  case wordReg v hi =>
    rw [writeReg_regs_zero]
    simp
  all_goals simp [drawHiLo]

/-- Bytes are written to data only (20_memory.md R61). -/
theorem Effect.byteAt_eq (h : Effect i s u) (hwf : Memory.wf s.mem = true) (ha : s.classAt a ≠ .data) :
    u.byteAt a = s.byteAt a := by
  cases h
  case bytes cells n hi hcode hdata => exact byteAt_writeBytes_other s cells a hwf fun hmem => ha (hdata a hmem)
  case lineBytes cells n hi hcode hdata =>
    rw [State.afterDraws_byteAt, byteAt_writeBytes_other _ cells a (by simpa using hwf) fun hmem => ha (hdata a hmem),
      State.afterLine_byteAt]
  all_goals exact byteAt_congr (by simp [drawHiLo]) a

theorem Effect.keepsHiLo (h : Effect i s u) (hi : writesHiLo i = false) : keepsHiLo s u := by
  cases h
  case hiLo h' | drawnHiLo h' => cases hi.symm.trans h'
  all_goals constructor <;> simp

theorem Effect.readFlag_eq (h : Effect i s u) (z : CopNum) (hz : compares i = false ∨ z ≠ 1#2) :
    u.readFlag z = s.readFlag z := by
  cases h
  case flag b hi =>
    rw [readFlag_writeFlag, if_neg]
    rintro rfl
    simp [hi] at hz
  case exit => rfl
  all_goals simp [drawHiLo]

theorem Effect.status_eq (h : Effect i s u) (hi : i ≠ .rfe) : u.status = s.status := by
  cases h
  case status h' => exact absurd h' hi
  all_goals simp [drawHiLo]

theorem Effect.mem_eq (h : Effect i s u) (hi : stores i = false ∨ (i = .syscall ∧ s.readReg 2#5 ≠ 8#32)) :
    u.mem = s.mem := by
  cases h
  case bytes h' hcode _ =>
    obtain hno | ⟨hsys, hne⟩ := hi
    · cases hno.symm.trans h'
    · exact absurd (hcode hsys) hne
  case lineBytes h' hcode _ =>
    obtain hno | ⟨-, hne⟩ := hi
    · rw [h'] at hno
      cases hno
    · exact absurd hcode hne
  all_goals simp [drawHiLo]

theorem Effect.console_eq (h : Effect i s u) (hi : i ≠ .syscall) : keepsConsole s u ∧ u.ended = s.ended := by
  cases h
  case lineBytes h' _ _ | emit h' | wordReg h' | wordSingle h' | double0 h' | exit h' _ => exact absurd h' hi
  all_goals simp [keepsConsole, drawHiLo]

theorem Effect.out_append (h : Effect i s u) : ∃ es, u.out = s.out ++ es ∧ es.length ≤ 1 := by
  cases h
  case emit e hi => exact ⟨[e], by simp, le_rfl⟩
  all_goals exact ⟨[], by simp [drawHiLo], zero_le_one⟩

theorem Effect.ended_cases (h : Effect i s u) (hend : u.ended = true) :
    s.ended = true ∨ (i = .syscall ∧ s.readReg 2#5 = 10#32) := by
  cases h
  case exit hi hcode => exact .inr ⟨hi, hcode⟩
  all_goals exact .inl (by simpa [drawHiLo] using hend)

/-! ## What each update of a pseudoinstruction keeps -/

theorem scratchAt_cfg (dests : List Reg) (s : State) : (scratchAt dests s).cfg = s.cfg := by
  unfold scratchAt; split <;> rfl

theorem scratchAt_mem (dests : List Reg) (s : State) : (scratchAt dests s).mem = s.mem := by
  unfold scratchAt; split <;> rfl

theorem scratchAt_hi (dests : List Reg) (s : State) : (scratchAt dests s).hi = s.hi := by
  unfold scratchAt; split <;> rfl

theorem scratchAt_lo (dests : List Reg) (s : State) : (scratchAt dests s).lo = s.lo := by
  unfold scratchAt; split <;> rfl

theorem scratchAt_ended (dests : List Reg) (s : State) : (scratchAt dests s).ended = s.ended := by
  unfold scratchAt; split <;> rfl

theorem scratchAt_regs_zero (dests : List Reg) (s : State) : (scratchAt dests s).regs[0] = s.regs[0] := by
  unfold scratchAt
  split
  · rfl
  · exact writeReg_regs_zero s 1#5 _

/-- Where `x[1]` is no destination it is drawn (R38). -/
theorem scratchAt_draws {dests : List Reg} (h : 1#5 ∉ dests) (s : State) :
    (scratchAt dests s).readReg 1#5 = Config.draw32 s.draws ∧ (scratchAt dests s).draws = s.draws + 1 := by
  simp [scratchAt, h, readReg_writeReg]

theorem scratchAt_draws_le (dests : List Reg) (s : State) : s.draws ≤ (scratchAt dests s).draws := by
  unfold scratchAt; split <;> simp

theorem PseudoEffect.cfg_eq (h : PseudoEffect p s u) : u.cfg = s.cfg := by cases h <;> simp [drawHiLo]

theorem PseudoEffect.ended_eq (h : PseudoEffect p s u) : u.ended = s.ended := by cases h <;> simp [drawHiLo]

theorem PseudoEffect.draws_le (h : PseudoEffect p s u) : s.draws ≤ u.draws := by cases h <;> simp [drawHiLo]

theorem PseudoEffect.memory_wf (h : PseudoEffect p s u) (hwf : Memory.wf s.mem = true) : Memory.wf u.mem = true := by
  cases h
  case bytes cells hs hp hdata => exact writeBytes_wf s cells hwf
  all_goals simpa [drawHiLo] using hwf

theorem PseudoEffect.regs_zero (h : PseudoEffect p s u) : u.regs[0] = s.regs[0] := by
  cases h
  case reg rd v hrd hp => exact writeReg_regs_zero s rd v
  case throughHiLo rd v hrd hp => exact writeReg_regs_zero s rd v
  case regPair q q' v v' hq hq' hp => rw [writeReg_regs_zero, writeReg_regs_zero]
  all_goals simp [drawHiLo]

theorem PseudoEffect.byteAt_eq (h : PseudoEffect p s u) (hwf : Memory.wf s.mem = true) (ha : s.classAt a ≠ .data) :
    u.byteAt a = s.byteAt a := by
  cases h
  case bytes cells hs hp hdata => exact byteAt_writeBytes_other s cells a hwf fun hmem => ha (hdata a hmem)
  all_goals exact byteAt_congr (by simp [drawHiLo]) a

theorem PseudoEffect.keepsRegs (h : PseudoEffect p s u) : keepsRegs s u (pseudoDests p) := by
  intro q hq
  cases h
  case reg rd v hrd hp => exact readReg_writeReg_other s (ne_of_mem_of_not_mem hrd hq).symm v
  case throughHiLo rd v hrd hp => exact readReg_writeReg_other s (ne_of_mem_of_not_mem hrd hq).symm v
  case regPair d d' v v' hd hd' hp =>
    rw [readReg_writeReg_other _ (ne_of_mem_of_not_mem hd' hq).symm, readReg_writeReg_other _ (ne_of_mem_of_not_mem hd hq).symm]
  all_goals simp [drawHiLo]

theorem PseudoEffect.keepsHiLo (h : PseudoEffect p s u) (hp : pseudoUsesHiLo p = false) : keepsHiLo s u := by
  cases h
  case throughHiLo rd v hrd h' => cases hp.symm.trans h'
  case hiLo op q x h' | drawnHiLo op q x h' =>
    rw [h'] at hp
    cases hp
  all_goals exact ⟨by simp, by simp⟩

/-- The divisions and multiplications that work through the unit draw `lo`, then `hi` (log 13). -/
theorem PseudoEffect.drawn_of_mulDiv {op : MulDivOp} {rd q : Reg} {x : Src2} (h : PseudoEffect (.mulDiv op rd q x) s u) :
    u.lo = Config.draw32 s.draws ∧ u.hi = Config.draw32 (s.draws + 1) ∧ u.draws = s.draws + 2 := by
  cases h
  case throughHiLo => exact ⟨rfl, rfl, rfl⟩
  case hiLo h' | drawnHiLo h' => cases h'
  all_goals contradiction

/-! ## Where an instruction leaves an aligned `pc` -/

/-- A branch moves `pc` by whole instructions (44_branch_jump.md R215). -/
theorem branchTarget_mod (s : State) (offset : BitVec 16) (h : s.pc.toNat % 4 = 0) :
    (branchTarget s offset).toNat % 4 = 0 := by
  have hbase : (branchBase s).toNat % 4 = 0 := by
    unfold branchBase
    cases s.cfg.branchBase
    · exact h
    · rw [BitVec.toNat_add]
      simp
      omega
  rw [branchTarget, BitVec.toNat_add, BitVec.toNat_mul]
  simp
  omega

/-- The target of `j` and `jal` is a word of the block of the next instruction (R216). -/
theorem jumpTarget_toNat (s : State) (field : BitVec 26) :
    (jumpTarget s field).toNat = (s.pc + 4#32).toNat / 2 ^ 28 * 2 ^ 28 + field.toNat * 4 := by
  rw [jumpTarget, BitVec.toNat_cast, toNat_append_add, toNat_append_add, BitVec.extractLsb'_toNat, Nat.shiftRight_eq_div_pow]
  have := (s.pc + 4#32).isLt
  simp only [BitVec.toNat_ofNat]
  omega

theorem GoesOnAt.aligned {q : Word} (h : GoesOnAt i s q) (hpc : s.pc.toNat % 4 = 0) (hjr : ∀ rs, i ≠ .jr rs)
    (hjalr : ∀ rd rs, i ≠ .jalr rd rs) : q.toNat % 4 = 0 := by
  cases h
  case next => rw [State.nextPc_toNat]; omega
  case branch offset => exact branchTarget_mod s offset hpc
  case far field hi => rw [jumpTarget_toNat]; omega
  case register rs hi =>
    obtain hi | ⟨rd, hi⟩ := hi
    · exact absurd hi (hjr rs)
    · exact absurd hi (hjalr rd rs)
  case stay => exact hpc

/-! ## The obligations -/

/-- A step of the machine or of a pseudoinstruction, as an update of an instruction or of a pseudoinstruction. -/
theorem step_or_pseudo_cases (h : step s = .next t ∨ ∃ len p, execPseudo len p s = .next t) :
    (∃ i u q, t = u.jump q ∧ Effect i s u) ∨
      ∃ p u q, t = (scratchAt (pseudoDests p) u).jump q ∧ PseudoEffect p s u := by
  obtain hstep | ⟨len, p, hp⟩ := h
  · obtain ⟨-, -, i, -, hexec⟩ := step_next.1 hstep
    obtain ⟨u, q, ht, hu, -⟩ := effect_of_exec hexec
    exact .inl ⟨i, u, q, ht, hu⟩
  · obtain ⟨u, q, ht, hu, -⟩ := effect_of_execPseudo hp
    exact .inr ⟨p, u, q, ht, hu⟩

/-- Settles O10: every update keeps the form of memory and the cell of register 0, and so does the draw of `x[1]`. -/
theorem invariantKept : Obligations.InvariantKept := by
  intro s t ⟨hwf, hzero⟩ h
  obtain ⟨i, u, q, rfl, hu⟩ | ⟨p, u, q, rfl, hu⟩ := step_or_pseudo_cases h
  · exact ⟨hu.memory_wf hwf, hu.regs_zero.trans hzero⟩
  · refine ⟨?_, ((scratchAt_regs_zero _ u).trans hu.regs_zero).trans hzero⟩
    rw [State.jump_mem, scratchAt_mem]
    exact hu.memory_wf hwf

/-- Settles O12: no update writes a parameter, and only checked stores write bytes, to data alone. -/
theorem parametersAndTextNeverChange : Obligations.ParametersAndTextNeverChange := by
  intro s t hwf h
  obtain ⟨i, u, q, rfl, hu⟩ | ⟨p, u, q, rfl, hu⟩ := step_or_pseudo_cases h
  · exact ⟨hu.cfg_eq, fun a ha => hu.byteAt_eq hwf ha⟩
  · exact ⟨(scratchAt_cfg _ u).trans hu.cfg_eq,
      fun a ha => (byteAt_congr (scratchAt_mem _ u) a).trans (hu.byteAt_eq hwf ha)⟩

/-- Settles O13: each kind of update is made by the named instructions only. -/
theorem onlyNamedWritersWrite : Obligations.OnlyNamedWritersWrite := by
  intro i s t h
  obtain ⟨u, q, rfl, hu, -⟩ := effect_of_exec h
  exact ⟨hu.keepsHiLo, fun hi z => hu.readFlag_eq z (.inl hi), fun z hz => hu.readFlag_eq z (.inr hz), hu.status_eq,
    fun hi a _ => byteAt_congr (hu.mem_eq (.inl hi)) a, fun hi hcode a _ => byteAt_congr (hu.mem_eq (.inr ⟨hi, hcode⟩)) a,
    hu.console_eq, hu.out_append⟩

/-- Settles O16: the stops of each instruction are those R400 lists. -/
theorem faultsAreListed : Obligations.FaultsAreListed := fun _ _ _ => mayRaise_of_exec

/-- Settles O28: only a target taken from a register can be misaligned; a far target keeps the upper four bits. -/
theorem alignedPcIsKept : Obligations.AlignedPcIsKept := by
  refine ⟨fun i s t hpc hjr hjalr h => ?aligned, fun i s t field hi h => ?block⟩
  case aligned =>
    obtain ⟨u, q, rfl, -, hq⟩ := effect_of_exec h
    exact hq.aligned hpc hjr hjalr
  case block =>
    have hpc : t.pc = jumpTarget s field := by obtain rfl | rfl := hi <;> cases h <;> rfl
    have := field.isLt
    rw [hpc, jumpTarget_toNat]
    omega

/-- Every floating-point instruction looks at its registers first (48_floating_point.md R320). -/
theorem exec_checks_even (i : Instr) (s : State) : ∃ r, exec i s = unlessStop (evenStop (floatRegisters i)) s r := by
  cases i <;> exact ⟨_, rfl⟩

theorem exec_of_odd (h : ¬ allEven i) : exec i s = .refused .oddFloatRegister := by
  obtain ⟨r, hr⟩ := exec_checks_even i s
  have hodd : ∃ q ∈ floatRegisters i, oddReg q = true := by
    simp only [allEven, not_forall] at h
    obtain ⟨q, hq, h⟩ := h
    exact ⟨q, hq, (oddReg_iff q).2 (by omega)⟩
  obtain ⟨q, hq, hodd⟩ := hodd
  rw [hr, evenStop_some _ hq hodd]
  rfl

/-- A form without a meaning is refused, whatever the state holds (R406). -/
theorem exec_refusedForm {r : Refusal} (h : refusedForm i s r) : exec i s = .refused r := by
  obtain ⟨z, offset, rfl | rfl, hz, rfl⟩ | ⟨offset, rfl | rfl, rfl⟩ | ⟨q, rfl, rfl⟩ | ⟨hodd, rfl⟩ |
    ⟨rfl, hnot, rfl⟩ := h
  · exact if_pos hz
  · exact if_pos hz
  · rfl
  · rfl
  · exact if_pos rfl
  · exact exec_of_odd hodd
  · exact returnFromException_notSupplied done hnot

/-- Settles O17: a refused form stops at the check that names it, and the stops of either kind of statement are listed. -/
theorem refusedFormsAreThese : Obligations.RefusedFormsAreThese := by
  refine ⟨fun i s r => exec_refusedForm, fun i s r => stopListed_of_refused, fun len p s hp => ?pseudo,
    fun len p s r => pseudoStopListed_of_refused⟩
  case pseudo =>
    obtain ⟨r, hr, hstop⟩ := formStop_of_refusals hp
    exact ⟨r, hr, by rw [execPseudo, hstop]; rfl⟩

/-- Settles O53: the end of a pseudoinstruction draws `x[1]` after its own update, which drew `lo` and `hi` first. -/
theorem pseudoinstructionsEndAlike : Obligations.PseudoinstructionsEndAlike := by
  intro len p s t h
  obtain ⟨u, q, rfl, hu, hq⟩ := effect_of_execPseudo h
  obtain ⟨hregs, -⟩ := frame_scratchAt u (pseudoDests p)
  refine ⟨fun hscratch => ?drawn, fun r hr => ?regs, fun hp => ?hilo, fun op rd r c hp => ?unit,
    hq.imp_left fun hq => hq⟩
  case drawn =>
    obtain ⟨hread, hdraws⟩ := scratchAt_draws hscratch u
    exact ⟨u.draws, hu.draws_le, by simp [hdraws], hread⟩
  case regs =>
    obtain ⟨hne, hr⟩ := List.ne_and_not_mem_of_not_mem_cons hr
    exact (hregs r (by simpa using hne)).trans (hu.keepsRegs r hr)
  case hilo =>
    obtain ⟨hhi, hlo⟩ := hu.keepsHiLo hp
    exact ⟨(scratchAt_hi _ u).trans hhi, (scratchAt_lo _ u).trans hlo⟩
  case unit =>
    subst hp
    obtain ⟨hlo, hhi, hdraws⟩ := hu.drawn_of_mulDiv
    have hle := scratchAt_draws_le (pseudoDests (.mulDiv op rd r c)) u
    exact ⟨s.draws, s.draws + 1, le_rfl, Nat.lt_succ_self _, by rw [State.jump_draws]; omega,
      (scratchAt_lo _ u).trans hlo, (scratchAt_hi _ u).trans hhi⟩

end Sys2Proof.Machine
end

section
/-! One step, the state after reset, and how a run ends (10_state.md R24, R40; 49_exception_trap_syscall.md R386;
60_exceptions.md R418). A state from which no step leads on ends the run, and a run meets at most one of these. -/

namespace Sys2Proof.Machine

open Sys2Proof.Claims

variable {run : State → Result} {s t u : State} {i : Instr} {program : List (Word × Statement)} {m n : Nat}

/-! ## One step -/

theorem fetchable_iff : fetchable s ↔ s.ended = false ∧ fetchStop s = none := by
  rw [fetchable, fetchStop_none]

/-- The bytes at `pc` decode as the word they make (20_memory.md R60). -/
theorem decodeWord_of_decodeBytes (h : decodeBytes s.cfg.endian
    [s.byteAt s.pc, s.byteAt (s.pc + 1#32), s.byteAt (s.pc + 2#32), s.byteAt (s.pc + 3#32)] = .ok (i, [])) :
    decodeWord s.fetchWord = .ok i := by
  change (match decodeWord s.fetchWord with
    | .ok i => Except.ok (i, [])
    | .error r => .error r) = _ at h
  split at h <;> cases h
  assumption

/-- A program of statements cannot go on where the machine cannot (log 38). -/
theorem statementStep_of_not_fetchable (h : ¬ fetchable s) : statementStep program s = step s := by
  cases hend : s.ended with
  | true => simp [statementStep, step, hend]
  | false =>
    obtain ⟨c, hc⟩ := Option.ne_none_iff_exists'.1 fun hnone => h (fetchable_iff.2 ⟨hend, hnone⟩)
    rw [step_of_fetchStop hend hc, statementStep]
    cases statementAt program s.pc <;> simp [hend, hc, step]

theorem statementStep_of_none (h : statementAt program s.pc = none) : statementStep program s = step s := by
  cases hend : s.ended <;> simp [statementStep, step, hend, h]

/-- Settles O6: past the checks of the fetch nothing but the instruction, or the statement, acts. -/
theorem stepRunsDecoded : Obligations.StepRunsDecoded := by
  refine ⟨fun s i hf h => ?machine, fun program s statement hf h => ?statement, fun program s h => ?none⟩
  case machine =>
    obtain ⟨hrun, hfetch⟩ := fetchable_iff.1 hf
    exact step_of_decode hrun hfetch (decodeWord_of_decodeBytes h)
  case statement =>
    obtain ⟨hrun, hfetch⟩ := fetchable_iff.1 hf
    simp [statementStep_some h, hrun, hfetch]
  case none => exact h.elim statementStep_of_not_fetchable statementStep_of_none

/-! ## The state after reset, and register 0 -/

theorem classAt_reset_pc : ∀ a ∈ bytesFrom State.reset.pc 4, State.reset.classAt a = .text := by
  have hall : (bytesFrom State.reset.pc 4).all (fun a => State.reset.classAt a == .text) = true := by decide +kernel
  exact fun a ha => beq_iff_eq.1 (List.all_eq_true.1 hall a ha)

/-- Settles O11: the state after reset is given field by field. -/
theorem resetMeetsInvariant : Obligations.ResetMeetsInvariant :=
  ⟨⟨reset_memory_wf, rfl⟩, rfl, rfl, classAt_reset_pc, readReg_zero _, rfl, rfl, rfl⟩

/-- Settles O15: a read of register 0 and a write to it never reach its cell. -/
theorem registerZeroIsZero : Obligations.RegisterZeroIsZero := fun s v => ⟨readReg_zero s, writeReg_zero s v⟩

/-! ## Runs that cannot go on -/

/-- No step leads on. -/
def stuck (run : State → Result) (s : State) : Prop := ∀ t, run s ≠ .next t

/-- A run goes no further than a state from which no step leads on. -/
theorem le_of_reachesIn_stuck (ht : reachesIn run n s t) (hstuck : stuck run t) (hu : reachesIn run m s u) : m ≤ n := by
  induction n generalizing s m with
  | zero =>
    cases ht
    cases m with
    | zero => exact le_rfl
    | succ m =>
      obtain ⟨v, hv, -⟩ := hu
      exact absurd hv (hstuck v)
  | succ n ih =>
    cases m with
    | zero => exact Nat.zero_le _
    | succ m =>
      obtain ⟨v, hv, ht⟩ := ht
      obtain ⟨w, hw, hu⟩ := hu
      cases stepsTo_unique hv hw
      exact Nat.succ_le_succ (ih ht hu)

/-- A run meets at most one state from which no step leads on. -/
theorem stuck_unique (ht : reachesIn run n s t) (hstuck : stuck run t) (hu : reachesIn run m s u)
    (hstuck' : stuck run u) : t = u := by
  obtain rfl : m = n := le_antisymm (le_of_reachesIn_stuck ht hstuck hu) (le_of_reachesIn_stuck hu hstuck' ht)
  exact reachesIn_unique m ht hu

/-- A run that meets such a state does not go on for ever. -/
theorem not_runsForever_of_stuck (ht : reachesIn run n s t) (hstuck : stuck run t) : ¬ runsForever run s := by
  intro hforever
  obtain ⟨u, hu⟩ := hforever (n + 1)
  exact absurd (le_of_reachesIn_stuck ht hstuck hu) (Nat.not_succ_le_self n)

/-- A run that does not go on for ever meets such a state. -/
theorem exists_stuck_of_not_runsForever (h : ¬ runsForever run s) : ∃ n t, reachesIn run n s t ∧ stuck run t := by
  by_contra hgo
  refine h fun n => ?_
  induction n with
  | zero => exact ⟨s, rfl⟩
  | succ n ih =>
    obtain ⟨t, ht⟩ := ih
    have hnot : ¬ stuck run t := fun hstuck => hgo ⟨n, t, ht, hstuck⟩
    simp only [stuck, not_forall, not_not] at hnot
    obtain ⟨u, hu⟩ := hnot
    exact ⟨u, (reachesIn_snoc n).2 ⟨t, ht, hu⟩⟩

/-! ## The four endings of a run of statements -/

theorem statementStep_ended (h : s.ended = true) : statementStep program s = .fault .runEnded := by
  simp [statementStep, h]

theorem statementStep_nil (s : State) : statementStep [] s = step s := statementStep_of_none rfl

/-- An outcome that is not the fault of a run that has ended. -/
theorem stopWith_ne_runEnded (c : Stop) : stopWith c s ≠ .fault .runEnded := by cases c <;> simp [stopWith, raise]

theorem exec_ne_runEnded : exec i s ≠ .fault .runEnded := by
  intro h
  obtain ⟨e, he, -⟩ := mayRaise_of_exec h
  cases he

theorem execPseudo_ne_runEnded {len : Nat} {p : Pseudo} : execPseudo len p s ≠ .fault .runEnded := by
  intro h
  obtain ⟨u, q, hr, -⟩ | ⟨c, hr, -⟩ := execPseudo_answers len p s
  · cases h.symm.trans hr
  · exact stopWith_ne_runEnded c (hr.symm.trans h)

theorem unlessStop_ne_runEnded {c : Option Stop} {r : Result} (h : r ≠ .fault .runEnded) :
    unlessStop c s r ≠ .fault .runEnded := by
  cases c with
  | none => exact h
  | some c => exact stopWith_ne_runEnded c

theorem step_ne_runEnded (h : s.ended = false) : step s ≠ .fault .runEnded := by
  rw [step, h, if_neg Bool.false_ne_true]
  refine unlessStop_ne_runEnded ?_
  split
  · exact exec_ne_runEnded
  · exact stopWith_ne_runEnded (.raises _)

/-- Only service 10 makes a step answer that the run has ended (log 18). -/
theorem ended_of_statementStep (h : statementStep program s = .fault .runEnded) : s.ended = true := by
  by_contra hrun
  rw [Bool.not_eq_true] at hrun
  cases hat : statementAt program s.pc with
  | none =>
    rw [statementStep_of_none hat] at h
    exact step_ne_runEnded hrun h
  | some statement =>
    rw [statementStep_some hat, hrun, if_neg Bool.false_ne_true] at h
    refine unlessStop_ne_runEnded ?_ h
    cases statement with
    | machine i => exact exec_ne_runEnded
    | pseudo len p => exact execPseudo_ne_runEnded

/-- Each of the three endings is a state from which no step leads on. -/
theorem stuck_of_ended (h : s.ended = true) : stuck (statementStep program) s := by
  intro t ht
  cases (statementStep_ended h).symm.trans ht

theorem stuck_of_fault {f : Fault} (h : run s = .fault f) : stuck run s := by
  intro t ht
  cases h.symm.trans ht

theorem stuck_of_refused {r : Refusal} (h : run s = .refused r) : stuck run s := by
  intro t ht
  cases h.symm.trans ht

/-- A state from which no step leads on ends the run in one of the three ways. -/
theorem ending_of_stuck (hreach : reachesIn (statementStep program) n s t) (hstuck : stuck (statementStep program) t) :
    exits (statementStep program) s ∨ faults (statementStep program) s ∨ isRefused (statementStep program) s := by
  cases h : statementStep program t with
  | next u => exact absurd h (hstuck u)
  | refused r => exact .inr (.inr ⟨n, t, r, hreach, h⟩)
  | fault f =>
    cases f with
    | raised e pc => exact .inr (.inl ⟨n, t, e, pc, hreach, h⟩)
    | runEnded => exact .inl ⟨n, t, hreach, ended_of_statementStep h⟩

/-- A run that ends meets a state from which no step leads on. -/
theorem stuck_of_ending (h : exits (statementStep program) s ∨ faults (statementStep program) s ∨
    isRefused (statementStep program) s) :
    ∃ n t, reachesIn (statementStep program) n s t ∧ stuck (statementStep program) t := by
  obtain ⟨n, t, ht, hend⟩ | ⟨n, t, e, pc, ht, hf⟩ | ⟨n, t, r, ht, hr⟩ := h
  · exact ⟨n, t, ht, stuck_of_ended hend⟩
  · exact ⟨n, t, ht, stuck_of_fault hf⟩
  · exact ⟨n, t, ht, stuck_of_refused hr⟩

/-- The endings of a run of statements exclude each other, and one of them comes or the run goes on for ever (R418). -/
theorem endings_of_statementStep (program : List (Word × Statement)) (s : State) :
    let run := statementStep program
    (exits run s ∨ faults run s ∨ isRefused run s ∨ runsForever run s) ∧ ¬ (exits run s ∧ faults run s) ∧
      ¬ (exits run s ∧ isRefused run s) ∧ ¬ (faults run s ∧ isRefused run s) ∧
      ¬ (runsForever run s ∧ (exits run s ∨ faults run s ∨ isRefused run s)) := by
  refine ⟨?one, ?exitFault, ?exitRefused, ?faultRefused, ?forever⟩
  case one =>
    by_cases hforever : runsForever (statementStep program) s
    · exact .inr (.inr (.inr hforever))
    · obtain ⟨n, t, ht, hstuck⟩ := exists_stuck_of_not_runsForever hforever
      exact (ending_of_stuck ht hstuck).imp_right (Or.imp_right .inl)
  case exitFault =>
    rintro ⟨⟨n, t, ht, hend⟩, m, u, e, pc, hu, hf⟩
    obtain rfl := stuck_unique ht (stuck_of_ended hend) hu (stuck_of_fault hf)
    cases (statementStep_ended hend).symm.trans hf
  case exitRefused =>
    rintro ⟨⟨n, t, ht, hend⟩, m, u, r, hu, hr⟩
    obtain rfl := stuck_unique ht (stuck_of_ended hend) hu (stuck_of_refused hr)
    cases (statementStep_ended hend).symm.trans hr
  case faultRefused =>
    rintro ⟨⟨n, t, e, pc, ht, hf⟩, m, u, r, hu, hr⟩
    obtain rfl := stuck_unique ht (stuck_of_fault hf) hu (stuck_of_refused hr)
    cases hf.symm.trans hr
  case forever =>
    rintro ⟨hforever, hends⟩
    obtain ⟨n, t, ht, hstuck⟩ := stuck_of_ending hends
    exact not_runsForever_of_stuck ht hstuck hforever

/-! ## Service 10 (R386) -/

theorem exec_exit (h : s.readReg 2#5 = 10#32) : exec .syscall s = .next { s with ended := true } := exec_syscall h

theorem ended_of_exec (h : exec i s = .next t) (hend : t.ended = true) :
    s.ended = true ∨ (i = .syscall ∧ s.readReg 2#5 = 10#32) := by
  obtain ⟨u, q, rfl, hu, -⟩ := effect_of_exec h
  exact hu.ended_cases hend

theorem ended_of_execPseudo {len : Nat} {p : Pseudo} (h : execPseudo len p s = .next t) : t.ended = s.ended := by
  obtain ⟨u, q, rfl, hu, -⟩ := effect_of_execPseudo h
  exact (scratchAt_ended _ u).trans hu.ended_eq

/-- A run of words exits exactly when it reaches a `syscall` whose code is 10. -/
theorem exits_step_iff (hrun : s.ended = false) :
    exits step s ↔
      ∃ n t, reachesIn step n s t ∧ fetchable t ∧ decodeWord t.fetchWord = .ok .syscall ∧ t.readReg 2#5 = 10#32 := by
  constructor
  · rintro ⟨n, t, ht, hend⟩
    cases n with
    | zero =>
      cases ht
      cases hrun.symm.trans hend
    | succ n =>
      obtain ⟨u, hu, hut⟩ := (reachesIn_snoc n).1 ht
      obtain ⟨hurun, hfetch, i, hdecode, hexec⟩ := step_next.1 hut
      obtain huend | ⟨rfl, hcode⟩ := ended_of_exec hexec hend
      · cases hurun.symm.trans huend
      · exact ⟨n, u, hu, fetchable_iff.2 ⟨hurun, hfetch⟩, hdecode, hcode⟩
  · rintro ⟨n, t, ht, hf, hdecode, hcode⟩
    obtain ⟨htrun, hfetch⟩ := fetchable_iff.1 hf
    have hstep : stepsTo step t { t with ended := true } := step_next.2 ⟨htrun, hfetch, .syscall, hdecode, exec_exit hcode⟩
    exact ⟨n + 1, _, (reachesIn_snoc n).2 ⟨t, ht, hstep⟩, rfl⟩

/-- Settles O9: service 10 alone sets `ended`, and the endings of a run are the states from which no step leads on. -/
theorem exitEndsRun : Obligations.ExitEndsRun :=
  ⟨fun _ => exec_exit, fun _ _ h => ⟨step_ended h, statementStep_ended h⟩, fun _ _ _ => ended_of_exec,
    fun _ _ _ _ => ended_of_execPseudo, fun _ => exits_step_iff, statementStep_nil, endings_of_statementStep⟩

end Sys2Proof.Machine
end

section
/-! The results of the arithmetic, logical, shift, move, branch and jump instructions, in numbers
(40_arithmetic_logical.md to 44_branch_jump.md, 47_data_movement.md). -/

namespace Sys2Proof.Machine

open Sys2Proof.Claims

variable {s t : State} {i : Instr} {rd : Reg} {offset : BitVec 16}

/-! ## Words as numbers -/

theorem add_eq_ofNat (x y : Word) : x + y = BitVec.ofNat 32 (x.toNat + y.toNat) := by
  rw [BitVec.ofNat_add, BitVec.ofNat_toNat, BitVec.ofNat_toNat, BitVec.setWidth_eq, BitVec.setWidth_eq]

theorem mul_eq_ofNat (x y : Word) : x * y = BitVec.ofNat 32 (x.toNat * y.toNat) := by
  apply BitVec.eq_of_toNat_eq
  simp

theorem add_eq_ofInt (x y : Word) : x + y = BitVec.ofInt 32 (x.toInt + y.toInt) := by
  rw [BitVec.ofInt_add, BitVec.ofInt_toInt, BitVec.ofInt_toInt]

theorem neg_eq_ofInt (x : Word) : -x = BitVec.ofInt 32 (-x.toInt) := by
  rw [BitVec.ofInt_neg, BitVec.ofInt_toInt]

theorem sub_eq_ofInt (x y : Word) : x - y = BitVec.ofInt 32 (x.toInt - y.toInt) := by
  rw [BitVec.sub_eq_add_neg, sub_eq_add_neg, BitVec.ofInt_add, BitVec.ofInt_neg, BitVec.ofInt_toInt, BitVec.ofInt_toInt]

theorem and_eq_ofNat (x y : Word) : x &&& y = BitVec.ofNat 32 (x.toNat &&& y.toNat) := by
  rw [← BitVec.toNat_and, BitVec.ofNat_toNat, BitVec.setWidth_eq]

theorem or_eq_ofNat (x y : Word) : x ||| y = BitVec.ofNat 32 (x.toNat ||| y.toNat) := by
  rw [← BitVec.toNat_or, BitVec.ofNat_toNat, BitVec.setWidth_eq]

theorem xor_eq_ofNat (x y : Word) : x ^^^ y = BitVec.ofNat 32 (x.toNat ^^^ y.toNat) := by
  rw [← BitVec.toNat_xor, BitVec.ofNat_toNat, BitVec.setWidth_eq]

theorem not_eq_ofNat (x : Word) : ~~~x = BitVec.ofNat 32 (4294967295 - x.toNat) := by
  apply BitVec.eq_of_toNat_eq
  have := x.isLt
  rw [BitVec.toNat_not, BitVec.toNat_ofNat]
  omega

theorem nor_eq_ofNat (x y : Word) : ~~~(x ||| y) = BitVec.ofNat 32 (4294967295 - (x.toNat ||| y.toNat)) := by
  rw [not_eq_ofNat, BitVec.toNat_or]

theorem zeroExtendImm_toNat (imm : BitVec 16) : (zeroExtendImm imm).toNat = imm.toNat := by
  have := imm.isLt
  rw [zeroExtendImm, BitVec.toNat_setWidth]
  omega

theorem signExtendImm_toInt (imm : BitVec 16) : (signExtendImm imm).toInt = imm.toInt :=
  BitVec.toInt_signExtend_of_le (by omega)

theorem shiftLeft_eq_ofNat (x : Word) (n : Nat) : shiftLeft x n = BitVec.ofNat 32 (x.toNat * 2 ^ n) := by
  apply BitVec.eq_of_toNat_eq
  simp [shiftLeft, Nat.shiftLeft_eq]

theorem shiftRight_eq_ofNat (x : Word) (n : Nat) : shiftRight x n = BitVec.ofNat 32 (x.toNat / 2 ^ n) := by
  rw [shiftRight, ← Nat.shiftRight_eq_div_pow, ← BitVec.toNat_ushiftRight, BitVec.ofNat_toNat, BitVec.setWidth_eq]

theorem shiftRightArithmetic_eq_ofInt (x : Word) (n : Nat) :
    shiftRightArithmetic x n = BitVec.ofInt 32 (x.toInt / 2 ^ n) := by
  rw [shiftRightArithmetic, ← BitVec.ofInt_toInt (x := x.sshiftRight n), BitVec.toInt_sshiftRight, Int.shiftRight_eq_div_pow]
  norm_cast

/-- A variable distance counts modulo 32 (41_shift_rotate.md R178). -/
theorem distanceOf_eq (x : Word) : distanceOf x = x.toNat % 32 := by
  simp [distanceOf]

theorem upperImm_eq_ofNat (imm : BitVec 16) : upperImm imm = BitVec.ofNat 32 (imm.toNat * 65536) := by
  apply BitVec.eq_of_toNat_eq
  have := imm.isLt
  rw [upperImm, BitVec.toNat_cast, toNat_append_add, BitVec.toNat_ofNat, BitVec.toNat_ofNat]
  omega

/-- Part of a two's complement pattern, from bit 0. -/
theorem extractLsb'_ofInt_low (x : Int) : (BitVec.ofInt 64 x).extractLsb' 0 32 = BitVec.ofInt 32 x := by
  apply BitVec.eq_of_toNat_eq
  rw [BitVec.extractLsb'_toNat, BitVec.toNat_ofInt, BitVec.toNat_ofInt]
  simp
  omega

theorem extractLsb'_ofInt_high (x : Int) : (BitVec.ofInt 64 x).extractLsb' 32 32 = BitVec.ofInt 32 (x / 2 ^ 32) := by
  apply BitVec.eq_of_toNat_eq
  rw [BitVec.extractLsb'_toNat, BitVec.toNat_ofInt, BitVec.toNat_ofInt, Nat.shiftRight_eq_div_pow]
  simp
  omega

theorem extractLsb'_ofNat_low (x : Nat) : (BitVec.ofNat 64 x).extractLsb' 0 32 = BitVec.ofNat 32 x := by
  apply BitVec.eq_of_toNat_eq
  rw [BitVec.extractLsb'_toNat, BitVec.toNat_ofNat, BitVec.toNat_ofNat]
  simp

theorem extractLsb'_ofNat_high (x : Nat) : (BitVec.ofNat 64 x).extractLsb' 32 32 = BitVec.ofNat 32 (x / 2 ^ 32) := by
  apply BitVec.eq_of_toNat_eq
  rw [BitVec.extractLsb'_toNat, BitVec.toNat_ofNat, BitVec.toNat_ofNat, Nat.shiftRight_eq_div_pow]
  omega

/-- A number in the range of a signed word is the number of its pattern. -/
theorem toInt_ofInt_of_range {x : Int} (hlow : -2 ^ 31 ≤ x) (hhigh : x ≤ 2 ^ 31 - 1) : (BitVec.ofInt 32 x).toInt = x := by
  rw [BitVec.toInt_ofInt, Int.bmod_def]
  split <;> omega

theorem overflowsSigned_iff (x : Int) : overflowsSigned x = true ↔ x < -2 ^ 31 ∨ 2 ^ 31 - 1 < x := by
  simp [overflowsSigned]

/-! ## Instructions of one general register -/

/-- Settles O18: each meaning writes one value, which is the number of the rule. -/
theorem arithmeticLogicalResults : Obligations.ArithmeticLogicalResults := by
  intro i s rd v h
  cases i <;> cases h
  case addu => rw [← add_eq_ofNat]; exact setsReg_of_exec rfl
  case addiu imm => rw [← signExtendImm_toInt, ← add_eq_ofInt]; exact setsReg_of_exec rfl
  case subu => rw [← sub_eq_ofInt]; exact setsReg_of_exec rfl
  case and => rw [← and_eq_ofNat]; exact setsReg_of_exec rfl
  case andi imm => rw [← zeroExtendImm_toNat, ← and_eq_ofNat]; exact setsReg_of_exec rfl
  case nor => rw [← nor_eq_ofNat]; exact setsReg_of_exec rfl
  case or => rw [← or_eq_ofNat]; exact setsReg_of_exec rfl
  case ori imm => rw [← zeroExtendImm_toNat, ← or_eq_ofNat]; exact setsReg_of_exec rfl
  case xor => rw [← xor_eq_ofNat]; exact setsReg_of_exec rfl
  case xori imm => rw [← zeroExtendImm_toNat, ← xor_eq_ofNat]; exact setsReg_of_exec rfl

/-- `add`, `addi` and `sub` are the shared operation on their exact result (40_arithmetic_logical.md R120). -/
theorem exec_exactResult {x : Int} (h : exactResult i s = some (rd, x)) : exec i s = setRegOrOverflow rd x done s := by
  cases i <;> cases h
  case add | sub => rfl
  case addi imm => rw [← signExtendImm_toInt]; rfl

theorem setRegOrOverflow_of_range {x : Int} (fin : State → Result) (hlow : -2 ^ 31 ≤ x) (hhigh : x ≤ 2 ^ 31 - 1) :
    setRegOrOverflow rd x fin s = fin (s.writeReg rd (BitVec.ofInt 32 x)) := by
  have hfit : ¬ overflowsSigned x = true := by rw [overflowsSigned_iff]; omega
  rw [setRegOrOverflow, if_neg hfit, setReg]

/-- Settles O19: the two ranges are the two sides of the one test. -/
theorem overflowIsDetected : Obligations.OverflowIsDetected := by
  refine fun i s rd x h => ⟨fun hlow hhigh => ?fits, fun hout => ?overflows⟩
  case fits => exact setsReg_of_exec ((exec_exactResult h).trans (setRegOrOverflow_of_range done hlow hhigh))
  case overflows =>
    exact (exec_exactResult h).trans (setRegOrOverflow_fault rd x done ((overflowsSigned_iff x).2 hout))

/-- Settles O20: a shift is a power of two times, or a division rounded down. -/
theorem shiftResults : Obligations.ShiftResults := by
  intro i s rd v h
  cases i <;> cases h
  case sll => rw [← shiftLeft_eq_ofNat]; exact setsReg_of_exec rfl
  case sllv => rw [← distanceOf_eq, ← shiftLeft_eq_ofNat]; exact setsReg_of_exec rfl
  case sra => rw [← shiftRightArithmetic_eq_ofInt]; exact setsReg_of_exec rfl
  case srav => rw [← distanceOf_eq, ← shiftRightArithmetic_eq_ofInt]; exact setsReg_of_exec rfl
  case srl => rw [← shiftRight_eq_ofNat]; exact setsReg_of_exec rfl
  case srlv => rw [← distanceOf_eq, ← shiftRight_eq_ofNat]; exact setsReg_of_exec rfl

/-! ## Instructions of the multiply and divide unit, and moves -/

theorem setsHiLo_of_exec {h l : Word} (hexec : exec i s = done (s.writeHiLo h l)) : setsHiLo i s h l := by
  obtain ⟨hregs, hcop, hflags, -, hmem, hconsole, hrun⟩ := frame_refl s
  exact ⟨_, hexec, rfl, rfl, rfl, hregs, hcop, hflags, hmem, hconsole, hrun, rfl⟩

theorem frame_writeCop (s : State) (z : CopNum) (j : Reg) (v : Word) : frame s (s.writeCop z j v) [] [(z, j)] [] := by
  refine ⟨fun _ _ => rfl, fun y k hk => ?_, (frame_refl s).2.2⟩
  rw [readCop_writeCop, if_neg]
  rintro ⟨rfl, rfl⟩
  exact hk (List.mem_singleton_self _)

/-- Settles O22: each move reads one register and writes another. -/
theorem movesCopy : Obligations.MovesCopy := by
  refine ⟨fun i s rd v h => ?toGeneral, fun rs s => setsHiLo_of_exec rfl, fun rs s => setsHiLo_of_exec rfl,
    fun z rt rd s => ?toCop⟩
  case toGeneral =>
    cases i <;> cases h
    case lui => rw [← upperImm_eq_ofNat]; exact setsReg_of_exec rfl
    case mfhi | mflo | mfcz => exact setsReg_of_exec rfl
  case toCop =>
    refine ⟨_, rfl, ?_, rfl, frame_trans (frame_writeCop s z rd (s.readReg rt)) (frame_jump _ _), rfl⟩
    rw [State.jump_readCop, readCop_writeCop, if_pos ⟨rfl, rfl⟩]

/-- The shared operations of the multiply and divide unit, in numbers (R132, R133, R136). -/
theorem multiplySigned_eq (a b : Word) (fin : State → Result) (s : State) :
    multiplySigned a b fin s =
      fin (s.writeHiLo (BitVec.ofInt 32 (a.toInt * b.toInt / 2 ^ 32)) (BitVec.ofInt 32 (a.toInt * b.toInt))) := by
  rw [multiplySigned, extractLsb'_ofInt_high, extractLsb'_ofInt_low]

theorem multiplyUnsigned_eq (a b : Word) (fin : State → Result) (s : State) :
    multiplyUnsigned a b fin s =
      fin (s.writeHiLo (BitVec.ofNat 32 (a.toNat * b.toNat / 2 ^ 32)) (BitVec.ofNat 32 (a.toNat * b.toNat))) := by
  rw [multiplyUnsigned, extractLsb'_ofNat_high, extractLsb'_ofNat_low]

theorem divideUnsigned_of_ne {a b : Word} (h : b ≠ 0#32) (fin : State → Result) (s : State) :
    divideUnsigned a b fin s =
      fin (s.writeHiLo (BitVec.ofNat 32 (a.toNat % b.toNat)) (BitVec.ofNat 32 (a.toNat / b.toNat))) := if_neg h

/-- Settles O23: the two words of the exact product; the remainder and quotient of naturals. -/
theorem multiplyAndDivideUnsigned : Obligations.MultiplyAndDivideUnsigned :=
  ⟨fun _ _ _ => setsHiLo_of_exec (multiplySigned_eq _ _ done _), fun _ _ _ => setsHiLo_of_exec (multiplyUnsigned_eq _ _ done _),
    fun _ _ _ h => setsHiLo_of_exec (divideUnsigned_of_ne h done _)⟩

/-! ## Signed division (R134, R135) -/

theorem quotientOverflows_iff (a b : Word) : quotientOverflows a b = true ↔ a.toInt = -2 ^ 31 ∧ b.toInt = -1 := by
  have ha : a = 0x80000000#32 ↔ a.toInt = -2 ^ 31 := BitVec.toInt_inj (y := 0x80000000#32).symm
  have hb : b = 0xFFFFFFFF#32 ↔ b.toInt = -1 := BitVec.toInt_inj (y := 0xFFFFFFFF#32).symm
  simp only [quotientOverflows, Bool.and_eq_true, beq_iff_eq, ha, hb]

theorem toInt_range (x : Word) : -2 ^ 31 ≤ x.toInt ∧ x.toInt ≤ 2 ^ 31 - 1 := by
  have h1 := BitVec.le_toInt x
  have h2 := BitVec.toInt_lt (x := x)
  omega

/-- A truncated quotient fits, but for the one that does not. -/
theorem tdiv_range {a b : Word} (hb : b ≠ 0#32) (hcorner : ¬ (a.toInt = -2 ^ 31 ∧ b.toInt = -1)) :
    -2 ^ 31 ≤ a.toInt.tdiv b.toInt ∧ a.toInt.tdiv b.toInt ≤ 2 ^ 31 - 1 := by
  obtain ⟨hlow, hhigh⟩ := toInt_range a
  have hb0 : b.toInt ≠ 0 := fun h => hb (BitVec.eq_of_toInt_eq h)
  have habs : (a.toInt.tdiv b.toInt).natAbs = a.toInt.natAbs / b.toInt.natAbs := Int.natAbs_tdiv _ _
  by_cases h1 : b.toInt.natAbs = 1
  · obtain h | h : b.toInt = 1 ∨ b.toInt = -1 := by omega
    · rw [h, Int.tdiv_one]
      exact ⟨hlow, hhigh⟩
    · rw [h, Int.tdiv_neg, Int.tdiv_one]
      omega
  · have hhalf : a.toInt.natAbs / b.toInt.natAbs ≤ a.toInt.natAbs / 2 :=
      Nat.div_le_div_left (by omega) (by omega)
    omega

/-- A truncated division: its remainder is smaller than the divisor and has the sign of the dividend. -/
theorem tdiv_tmod_spec (x y : Int) (hy : y ≠ 0) :
    x = x.tdiv y * y + x.tmod y ∧ |x.tmod y| < |y| ∧ (x.tmod y = 0 ∨ (0 < x.tmod y ↔ 0 < x)) := by
  have habs : (x.tmod y).natAbs < y.natAbs := by
    rw [Int.natAbs_tmod]
    exact Nat.mod_lt _ (Int.natAbs_pos.2 hy)
  have hpos (h : 0 ≤ x) : 0 ≤ x.tmod y := Int.tmod_nonneg y h
  have hneg (h : 0 ≤ -x) : 0 ≤ -x.tmod y := Int.neg_tmod x y ▸ Int.tmod_nonneg y h
  refine ⟨(Int.tdiv_mul_add_tmod x y).symm, ?_, by omega⟩
  rw [Int.abs_eq_natAbs, Int.abs_eq_natAbs]
  exact_mod_cast habs

/-- A pattern with a clear sign bit is the same number signed and unsigned. -/
theorem toNat_of_toInt_nonneg {x : Word} (h : 0 ≤ x.toInt) : (x.toNat : Int) = x.toInt := by
  rw [BitVec.toInt_eq_toNat_cond] at h ⊢
  split_ifs at h ⊢ <;> omega

theorem toInt_ofNat_of_lt {n : Nat} (h : n < 2 ^ 31) : (BitVec.ofNat 32 n).toInt = n := by
  rw [BitVec.toInt_eq_toNat_cond, BitVec.toNat_ofNat]
  split_ifs <;> omega

/-- Where neither operand is negative the quotient is rounded down, which is the only whole quotient (R134). -/
theorem divide_nonneg {a b : Word} (ha : 0 ≤ a.toInt) (hb : 0 < b.toInt) :
    (BitVec.ofNat 32 (a.toNat / b.toNat)).toInt = a.toInt / b.toInt ∧
      (BitVec.ofNat 32 (a.toNat % b.toNat)).toInt = a.toInt % b.toInt := by
  have hA := toNat_of_toInt_nonneg ha
  have hB := toNat_of_toInt_nonneg hb.le
  obtain ⟨-, hmax⟩ := toInt_range a
  have hdiv : a.toNat / b.toNat ≤ a.toNat := Nat.div_le_self _ _
  have hmod : a.toNat % b.toNat ≤ a.toNat := Nat.mod_le _ _
  rw [toInt_ofNat_of_lt (by omega), toInt_ofNat_of_lt (by omega), ← hA, ← hB]
  norm_cast

/-- The model's signed division gives a quotient and a remainder as R134 says. -/
theorem dividesTo_signedDivide {a b : Word} (s : State) (hb : b ≠ 0#32) (hcorner : ¬ (a.toInt = -2 ^ 31 ∧ b.toInt = -1)) :
    dividesTo s a b (signedDivide s a b).1 (signedDivide s a b).2 := by
  have hb0 : b.toInt ≠ 0 := fun h => hb (BitVec.eq_of_toInt_eq h)
  have hspec := tdiv_tmod_spec a.toInt b.toInt hb0
  by_cases hpos : 0 ≤ a.toInt ∧ 0 < b.toInt
  · obtain ⟨ha, hbpos⟩ := hpos
    have hdivide : signedDivide s a b = (BitVec.ofNat 32 (a.toNat / b.toNat), BitVec.ofNat 32 (a.toNat % b.toNat)) :=
      if_pos ⟨ha, hbpos⟩
    obtain ⟨hq, hr⟩ := divide_nonneg ha hbpos
    rw [Int.tdiv_eq_ediv_of_nonneg ha, Int.tmod_eq_emod_of_nonneg ha] at hspec
    rw [hdivide, dividesTo, hq, hr]
    refine ⟨fun _ _ => ⟨rfl, ?_⟩, fun _ => hspec, fun _ h => absurd ⟨ha, hbpos⟩ h⟩
    rw [Int.emod_def, mul_comm]
  · refine ⟨fun ha hb => absurd ⟨ha, hb⟩ hpos, fun htrunc => ?_, fun hhost _ => ?_⟩
    · obtain ⟨hlow, hhigh⟩ := tdiv_range hb hcorner
      have hdivide : signedDivide s a b = (BitVec.ofInt 32 (a.toInt.tdiv b.toInt), BitVec.ofInt 32 (a.toInt.tmod b.toInt)) := by
        rw [signedDivide, if_neg hpos, htrunc]
      obtain ⟨hsum, hsmall, hsign⟩ := hspec
      have habs := hsmall
      rw [Int.abs_eq_natAbs, Int.abs_eq_natAbs] at habs
      have hrange := toInt_range b
      rw [hdivide, toInt_ofInt_of_range hlow hhigh, toInt_ofInt_of_range (by omega) (by omega)]
      exact ⟨hsum, hsmall, hsign⟩
    · rw [signedDivide, if_neg hpos, hhost]

theorem divideSigned_of_fits {a b : Word} (hb : b ≠ 0#32) (hcorner : ¬ (a.toInt = -2 ^ 31 ∧ b.toInt = -1))
    (fin : State → Result) (s : State) :
    divideSigned a b fin s = fin (s.writeHiLo (signedDivide s a b).2 (signedDivide s a b).1) := by
  rw [divideSigned, if_neg hb, if_neg (mt (quotientOverflows_iff a b).1 hcorner)]

theorem divideSigned_of_corner {a b : Word} (ha : a.toInt = -2 ^ 31) (hb : b.toInt = -1) (fin : State → Result)
    (s : State) : divideSigned a b fin s = raise .overflow s := by
  have hb0 : b ≠ 0#32 := by
    rintro rfl
    cases hb
  rw [divideSigned, if_neg hb0, if_pos ((quotientOverflows_iff a b).2 ⟨ha, hb⟩)]

/-- Settles O24: quotient and remainder are those of the shared division. -/
theorem signedDivision : Obligations.SignedDivision :=
  fun _ _ s hb hcorner =>
    ⟨_, _, setsHiLo_of_exec (divideSigned_of_fits hb hcorner done s), dividesTo_signedDivide s hb hcorner⟩

/-- Settles O25: the two tests that come before a division. -/
theorem divisionCorners : Obligations.DivisionCorners := by
  refine ⟨fun i rs rt s hi hzero => ?zero, fun rs rt s ha hb => divideSigned_of_corner ha hb done s⟩
  case zero =>
    obtain ⟨hregs, hcop, hflags, -, hmem, hconsole, hrun⟩ := frame_refl s
    have hexec : exec i s = done (drawHiLo s) := by obtain rfl | rfl := hi <;> exact if_pos hzero
    exact ⟨_, hexec, rfl, rfl, rfl, rfl, hregs, hcop, hflags, hmem, hconsole, hrun⟩

/-! ## Branches (44_branch_jump.md R215 to R237) -/

theorem goesTo_of_exec {q : Word} (h : exec i s = .next (s.jump q)) : goesTo i s q [] :=
  ⟨_, h, rfl, fun _ hr => absurd hr List.not_mem_nil, frame_jump s q, rfl⟩

theorem goesTo_of_exec_link {q : Word} (h : exec i s = .next ((s.link rd).jump q)) : goesTo i s q [rd] := by
  refine ⟨_, h, rfl, fun r hr hne => ?_, frame_trans (frame_writeReg s rd s.nextPc) (frame_jump _ q), rfl⟩
  obtain rfl := List.mem_singleton.1 hr
  exact readReg_writeReg_same s hne s.nextPc

/-- The model's branch target is the integer sum modulo `2^32` (R215). -/
theorem branchTarget_eq_target (s : State) (offset : BitVec 16) : branchTarget s offset = target s offset := by
  unfold branchTarget branchBase target
  cases s.cfg.branchBase <;> simp [BitVec.ofInt_add, BitVec.ofInt_mul, BitVec.signExtend]

theorem jumpTarget_eq_farTarget (s : State) (field : BitVec 26) : jumpTarget s field = farTarget s field := by
  apply BitVec.eq_of_toNat_eq
  have := field.isLt
  rw [jumpTarget_toNat, farTarget, BitVec.toNat_add, BitVec.toNat_ofNat, BitVec.toNat_ofNat]
  omega

/-- A branch of either kind goes to its target where its condition holds, else to the next instruction. -/
theorem branchOutcome {c : Prop} {b : Bool} {dests : List Reg} {u : State} (hc : b = true ↔ c)
    (hexec : exec i s = .next (u.jump (if b then branchTarget s offset else s.nextPc)))
    (hgo : ∀ q, exec i s = .next (u.jump q) → goesTo i s q dests) :
    (c → goesTo i s (target s offset) dests) ∧ (¬ c → goesTo i s (s.pc + 4#32) dests) := by
  refine ⟨fun h => hgo _ ?_, fun h => hgo _ ?_⟩
  · rw [hexec, if_pos (hc.2 h), branchTarget_eq_target]
  · rw [hexec, if_neg (mt hc.1 h), State.nextPc]

/-- A branch that does not link tests its condition (R219 to R237). -/
theorem exec_branchCondition {c : Prop} (h : branchCondition i s = some (c, offset)) :
    ∃ b : Bool, (b = true ↔ c) ∧ exec i s = branchIf b offset s := by
  cases i
  case beq | bne | bgez | bgtz | blez | bltz =>
    cases h
    exact ⟨_, relationHolds_iff _ _ _, rfl⟩
  case bczt z off =>
    simp only [branchCondition] at h
    split_ifs at h with hz
    cases h
    exact ⟨s.readFlag 1#2 == true, beq_iff_eq, if_neg (not_not.2 hz)⟩
  case bczf z off =>
    simp only [branchCondition] at h
    split_ifs at h with hz
    cases h
    exact ⟨s.readFlag 1#2 == false, beq_iff_eq, if_neg (not_not.2 hz)⟩
  all_goals cases h

/-- A linking branch tests its condition and links either way (R226, R233). -/
theorem exec_linkCondition {c : Prop} (h : linkCondition i s = some (c, offset)) :
    ∃ b : Bool, (b = true ↔ c) ∧ exec i s = branchIf b offset (s.link 31#5) := by
  cases i
  case bgezal rs off | bltzal rs off =>
    simp only [linkCondition] at h
    split_ifs at h with hrs
    cases h
    exact ⟨_, relationHolds_iff _ _ _, if_neg hrs⟩
  all_goals cases h

/-- Settles O26: every branch is the shared test, of its state or of that with the link written. -/
theorem branchOutcomes : Obligations.BranchOutcomes := by
  refine ⟨fun i s c offset h => ?plain, fun i s c offset h => ?linking⟩
  case plain =>
    obtain ⟨b, hc, hexec⟩ := exec_branchCondition h
    exact branchOutcome hc hexec fun _ => goesTo_of_exec
  case linking =>
    obtain ⟨b, hc, hexec⟩ := exec_linkCondition h
    exact branchOutcome hc hexec fun _ => goesTo_of_exec_link

/-! ## Jumps (R216, R239 to R242) -/

theorem goesTo_j (s : State) (field : BitVec 26) : goesTo (.j field) s (farTarget s field) [] := by
  rw [← jumpTarget_eq_farTarget]
  exact goesTo_of_exec rfl

theorem goesTo_jal (s : State) (field : BitVec 26) : goesTo (.jal field) s (farTarget s field) [31#5] := by
  rw [← jumpTarget_eq_farTarget]
  exact goesTo_of_exec_link rfl

/-- Settles O27: each jump is one move of `pc`, with a link or without. -/
theorem jumpOutcomes : Obligations.JumpOutcomes :=
  fun s => ⟨fun field => ⟨goesTo_j s field, goesTo_jal s field⟩, fun _ => goesTo_of_exec rfl,
    fun _ _ hne => goesTo_of_exec_link (if_neg hne)⟩

/-! ## The fields the assembler computes (30_encoding.md R97, R98) -/

theorem target_eq_add (s : State) (offset : BitVec 16) :
    target s offset = branchBase s + BitVec.ofInt 32 (offset.toInt * 4) := by
  rw [← branchTarget_eq_target, branchTarget, BitVec.ofInt_mul]
  rfl

/-- The field of a branch is a quarter of the distance, and reaches `2^15` instructions either way. -/
theorem branchOffset_iff (s : State) (label : Word) (offset : BitVec 16) :
    branchOffset s label = .ok offset ↔ target s offset = label := by
  have hlow := BitVec.le_toInt offset
  have hhigh := BitVec.toInt_lt (x := offset)
  have hsum : target s offset = label ↔ (label - branchBase s).toInt = offset.toInt * 4 := by
    have hfield := toInt_ofInt_of_range (x := offset.toInt * 4) (by omega) (by omega)
    rw [target_eq_add, ← hfield, BitVec.toInt_inj, hfield, eq_comm (a := label - branchBase s),
      BitVec.eq_sub_iff_add_eq, BitVec.add_comm]
  rw [hsum]
  unfold branchOffset
  dsimp only
  split_ifs with hreach
  · constructor
    · rintro h
      cases h
      have hquarter : (BitVec.ofInt 16 ((label - branchBase s).toInt / 4)).toInt = (label - branchBase s).toInt / 4 := by
        rw [BitVec.toInt_ofInt, Int.bmod_def]
        split <;> omega
      omega
    · intro h
      rw [h, Int.mul_ediv_cancel _ (by decide), BitVec.ofInt_toInt]
  · simp only [false_iff]
    omega

theorem branchOffset_error {s : State} {label : Word} (h : ∀ offset, target s offset ≠ label) :
    branchOffset s label = .error (.refuses (.labelOutOfRange label)) := by
  cases hfield : branchOffset s label with
  | ok offset => exact absurd ((branchOffset_iff s label offset).1 hfield) (h offset)
  | error stop =>
    unfold branchOffset at hfield
    dsimp only at hfield
    split_ifs at hfield
    exact congrArg _ (Except.error.inj hfield).symm

/-- A far label is in the block of the next instruction, and a multiple of 4. -/
theorem jumpField_test (s : State) (label : Word) :
    (label.extractLsb' 28 4 = (s.pc + 4).extractLsb' 28 4 ∧ label.extractLsb' 0 2 = 0) ↔
      label.toNat / 2 ^ 28 = (s.pc + 4#32).toNat / 2 ^ 28 ∧ label.toNat % 4 = 0 := by
  have h1 := label.isLt
  have h2 := (s.pc + 4#32).isLt
  rw [← BitVec.toNat_inj, ← BitVec.toNat_inj]
  simp only [BitVec.extractLsb'_toNat, Nat.shiftRight_eq_div_pow]
  simp
  omega

theorem jumpField_iff (s : State) (label : Word) (field : BitVec 26) :
    jumpField s label = .ok field ↔ farTarget s field = label := by
  have h1 := label.isLt
  have h3 := field.isLt
  rw [← jumpTarget_eq_farTarget, ← BitVec.toNat_inj, jumpTarget_toNat]
  unfold jumpField
  simp only [jumpField_test]
  split_ifs with hreach
  · rw [Except.ok.injEq, ← BitVec.toNat_inj, BitVec.extractLsb'_toNat, Nat.shiftRight_eq_div_pow]
    omega
  · simp only [false_iff]
    omega

theorem jumpField_error {s : State} {label : Word}
    (h : label.toNat / 2 ^ 28 ≠ (s.pc + 4#32).toNat / 2 ^ 28 ∨ label.toNat % 4 ≠ 0) :
    jumpField s label = .error (.refuses (.labelOutOfRange label)) :=
  if_neg (mt (jumpField_test s label).1 (not_and_or.2 h))

/-- Settles O60: the computed field is the one whose target is the label. -/
theorem assembledTargetsReachLabels : Obligations.AssembledTargetsReachLabels :=
  fun s label =>
    ⟨fun offset => (branchOutcomes.1 _ s _ offset rfl).1 rfl, branchOffset_iff s label, branchOffset_error, goesTo_j s,
      jumpField_iff s label, jumpField_error⟩

end Sys2Proof.Machine
end

section
/-! Bytes as numbers, the bytes of a partial word, and what an access does or why it stops (20_memory.md R51 to R69,
45_load.md R264, 46_store.md). -/

namespace Sys2Proof.Machine

open Sys2Proof.Claims

variable {s t : State} {i : Instr} {a v : Word} {addrs addrs' : List Word} {r : Result} {side : Side} {e : Endian}

/-! ## The number some bytes make (R52, R53) -/

/-- Consecutive bytes make a number of two parts, the first the more significant under big-endian order. -/
theorem number_add (s : State) (a : Word) (m n : Nat) :
    number s a (m + n) =
      match s.cfg.endian with
      | .little => number s a m + 256 ^ m * number s (a + BitVec.ofNat 32 m) n
      | .big => number s a m * 256 ^ n + number s (a + BitVec.ofNat 32 m) n := by
  induction m generalizing a with
  | zero => cases s.cfg.endian <;> simp [number]
  | succ m ih =>
    rw [Nat.succ_add, number, number, ih, add_one_add_ofNat]
    cases s.cfg.endian
    · dsimp only
      ring
    · dsimp only
      ring

theorem number_lt (s : State) (a : Word) (n : Nat) : number s a n < 256 ^ n := by
  induction n generalizing a with
  | zero => simp [number]
  | succ n ih =>
    have hrest := ih (a + 1#32)
    have hbyte : (s.byteAt a).toNat ≤ 255 := Nat.le_of_lt_succ (s.byteAt a).isLt
    rw [number, pow_succ]
    cases s.cfg.endian
    · dsimp only
      omega
    · have := Nat.mul_le_mul_right (256 ^ n) hbyte
      dsimp only
      omega

theorem number_one (s : State) (a : Word) : number s a 1 = (s.byteAt a).toNat := by
  simp only [number]
  cases s.cfg.endian <;> simp

theorem number_two (s : State) (a : Word) : number s a 2 = (s.halfAt a).toNat := by
  simp only [State.halfAt, halfOfBytes, number]
  cases s.cfg.endian <;> simp only [BitVec.toNat_cast, toNat_append_add] <;> omega

/-- The number depends on the byte order and on the bytes alone. -/
theorem number_congr (hcfg : t.cfg = s.cfg) (n : Nat) (h : ∀ x ∈ bytesFrom a n, t.byteAt x = s.byteAt x) :
    number t a n = number s a n := by
  induction n generalizing a with
  | zero => rfl
  | succ n ih =>
    rw [bytesFrom_succ, List.forall_mem_cons] at h
    obtain ⟨hbyte, hrest⟩ := h
    rw [number, number, hcfg, hbyte, ih hrest]

theorem number_jump (s : State) (q a : Word) (n : Nat) : number (s.jump q) a n = number s a n :=
  number_congr (s := s) (t := s.jump q) rfl n fun _ _ => rfl

/-- The model's extended value of a load is that of the number its bytes make (45_load.md R257 to R262). -/
theorem value_eq_loaded (kind : LoadKind) (s : State) (a : Word) : LoadKind.value kind s a = loaded s kind a := by
  cases kind
  case byte => simp [LoadKind.value, loaded, number_one, BitVec.signExtend]
  case byteUnsigned => simp [LoadKind.value, loaded, number_one, BitVec.ofNat_toNat]
  case half => simp [LoadKind.value, loaded, number_two, BitVec.signExtend]
  case halfUnsigned => simp [LoadKind.value, loaded, number_two, BitVec.ofNat_toNat]
  case word => exact State.wordAt_eq_number

theorem size_eq_loadBytes (kind : LoadKind) : LoadKind.size kind = loadBytes kind := by cases kind <;> rfl

/-! ## The frame of a write to memory -/

theorem frame_mono {ds ds' : List Reg} {cs cs' : List (CopNum × Reg)} (h : frame s t ds cs addrs) (hd : ds ⊆ ds')
    (hc : cs ⊆ cs') (ha : addrs ⊆ addrs') : frame s t ds' cs' addrs' := by
  obtain ⟨hregs, hcop, hflags, hhilo, hmem, hconsole, hrun⟩ := h
  exact ⟨fun r hr => hregs r fun hr' => hr (hd hr'), fun z j hj => hcop z j fun hj' => hj (hc hj'), hflags, hhilo,
    fun x hx => hmem x fun hx' => hx (ha hx'), hconsole, hrun⟩

theorem frame_writeBytes {cells : List (Word × Byte)} (hwf : Memory.wf s.mem = true) :
    frame s (s.writeBytes cells) [] [] (cells.map Prod.fst) := by
  refine ⟨fun r _ => State.writeBytes_readReg s cells r, fun z j _ => State.writeBytes_readCop s cells z j,
    State.writeBytes_readFlag s cells, ⟨State.writeBytes_hi s cells, State.writeBytes_lo s cells⟩,
    fun x hx => byteAt_writeBytes_other s cells x hwf hx, ?_, ?_⟩
  · simp [keepsConsole]
  · simp [keepsRun]

/-! ## The number a plain store leaves (46_store.md R280 to R283) -/

theorem half_addresses_differ (a : Word) : (bytesFrom a 2).Nodup := by
  have h1 : a ≠ a + 1#32 := by bv_omega
  simp [h1]

/-- A halfword stored is read back (R62). -/
theorem halfAt_writeHalf (s : State) (a : Word) (h : Half) (hwf : Memory.wf s.mem = true) :
    (s.writeBytes (halfCells s.cfg.endian a h)).halfAt a = h := by
  have hd : ((halfCells s.cfg.endian a h).map Prod.fst).Nodup := by
    rw [halfCells_addresses]
    exact half_addresses_differ a
  have key := fun x b => byteAt_writeBytes_mem s (halfCells s.cfg.endian a h) x b hwf hd
  have back : ((h.extractLsb' 8 8 ++ h.extractLsb' 0 8).cast rfl : Half) = h := by
    apply BitVec.eq_of_toNat_eq
    have := h.isLt
    rw [BitVec.toNat_cast, toNat_append_add, BitVec.extractLsb'_toNat, BitVec.extractLsb'_toNat, Nat.shiftRight_eq_div_pow,
      Nat.shiftRight_eq_div_pow]
    omega
  rw [State.halfAt, State.writeBytes_cfg]
  revert key
  cases s.cfg.endian <;> intro key
  · rw [key a (h.extractLsb' 0 8) (by simp [halfCells, bytesOfHalf]),
      key (a + 1#32) (h.extractLsb' 8 8) (by simp [halfCells, bytesOfHalf])]
    exact back
  · rw [key a (h.extractLsb' 8 8) (by simp [halfCells, bytesOfHalf]),
      key (a + 1#32) (h.extractLsb' 0 8) (by simp [halfCells, bytesOfHalf])]
    exact back

/-- A store leaves the low bytes of its value. -/
theorem number_writeCells (kind : StoreKind) (s : State) (a v : Word) (hwf : Memory.wf s.mem = true) :
    number (s.writeBytes (StoreKind.cells kind s.cfg.endian a v)) a (StoreKind.size kind) =
      v.toNat % 256 ^ StoreKind.size kind := by
  cases kind
  case byte =>
    have hread : (s.writeBytes (byteCells a (v.extractLsb' 0 8))).byteAt a = v.extractLsb' 0 8 :=
      byteAt_writeBytes_mem s _ a _ hwf (List.nodup_singleton a) (List.mem_singleton_self _)
    rw [StoreKind.size, number_one, StoreKind.cells, hread, BitVec.extractLsb'_toNat]
    rfl
  case half =>
    rw [StoreKind.size, number_two, StoreKind.cells, halfAt_writeHalf s a _ hwf, BitVec.extractLsb'_toNat]
    rfl
  case word =>
    have := v.isLt
    rw [StoreKind.size, ← State.wordAt_toNat, StoreKind.cells, wordAt_writeWord s a v hwf]
    omega

/-! ## The bytes of a partial word (R264) -/

theorem byteNumber_eq (v : Word) (j : Nat) : byteNumber v j = (byteOfWord v j).toNat := by
  rw [byteNumber, byteOfWord, BitVec.extractLsb'_toNat, Nat.shiftRight_eq_div_pow, pow_mul]
  rfl

/-- A word is the sum of its four bytes. -/
theorem toNat_eq_bytes (v : Word) :
    v.toNat = byteNumber v 0 + 256 * byteNumber v 1 + 65536 * byteNumber v 2 + 16777216 * byteNumber v 3 := by
  have := v.isLt
  simp only [byteNumber]
  omega

theorem byteNumber_setByteOfWord (v : Word) (b : Byte) {i j : Nat} (hi : i < 4) (hj : j < 4) :
    byteNumber (setByteOfWord v i b) j = if j = i then b.toNat else byteNumber v j := by
  have hv := v.isLt
  have hb := b.isLt
  interval_cases i <;> interval_cases j <;>
    simp only [setByteOfWord, byteNumber, BitVec.toNat_cast, toNat_append_add, BitVec.extractLsb'_toNat,
      Nat.shiftRight_eq_div_pow] <;>
    norm_num <;>
    omega

/-- The pairs of a partial-word access are those of the table of R264. -/
theorem mem_partialPairs {m : Word} {j : Nat} :
    (m, j) ∈ partialPairs side e a ↔ j < 4 ∧ partner side e a j = some m := by
  have hk : a.toNat % 4 < 4 := Nat.mod_lt _ (by decide)
  cases side <;> cases e <;>
    simp only [partialPairs, partner, List.mem_map, List.mem_range, Prod.mk.injEq, Option.ite_none_right_eq_some,
      Option.some.injEq]
  · constructor
    · rintro ⟨i, hi, rfl, rfl⟩
      exact ⟨by omega, by omega, by rw [Nat.sub_sub_self (by omega)]⟩
    · rintro ⟨hj, hkj, rfl⟩
      exact ⟨3 - j, by omega, rfl, by omega⟩
  · constructor
    · rintro ⟨i, hi, rfl, rfl⟩
      exact ⟨by omega, by omega, by rw [Nat.sub_sub_self (by omega)]⟩
    · rintro ⟨hj, hkj, rfl⟩
      exact ⟨3 - j, by omega, rfl, by omega⟩
  · constructor
    · rintro ⟨i, hi, rfl, rfl⟩
      exact ⟨by omega, by omega, rfl⟩
    · rintro ⟨hj, hkj, rfl⟩
      exact ⟨j, by omega, rfl, rfl⟩
  · constructor
    · rintro ⟨i, hi, rfl, rfl⟩
      exact ⟨by omega, by omega, rfl⟩
    · rintro ⟨hj, hkj, rfl⟩
      exact ⟨j, by omega, rfl, rfl⟩

/-- The memory bytes of a partial-word access differ. -/
theorem partialPairs_addresses_nodup (side : Side) (e : Endian) (a : Word) :
    ((partialPairs side e a).map Prod.fst).Nodup := by
  have hk : a.toNat % 4 < 4 := Nat.mod_lt _ (by decide)
  have hinj {n : Nat} (hn : n ≤ 4) (f : Word → Word) (hf : Function.Injective f) :
      ((List.range n).map fun i => f (BitVec.ofNat 32 i)).Nodup := by
    refine List.nodup_range.map_on fun x hx y hy h => ?_
    have h32 := congrArg BitVec.toNat (hf h)
    rw [List.mem_range] at hx hy
    rw [BitVec.toNat_ofNat, BitVec.toNat_ofNat] at h32
    omega
  have hadd : Function.Injective fun x : Word => a + x := fun x y h => BitVec.add_right_inj a |>.1 h
  have hsub : Function.Injective fun x : Word => a - x := fun x y h => BitVec.sub_right_inj a |>.1 h
  cases side <;> cases e <;> simp only [partialPairs, List.map_map, Function.comp_def]
  · exact hinj (by omega) _ hsub
  · exact hinj (by omega) _ hadd
  · exact hinj (by omega) _ hadd
  · exact hinj (by omega) _ hsub

theorem partialPairs_bytes_nodup (side : Side) (e : Endian) (a : Word) :
    ((partialPairs side e a).map Prod.snd).Nodup := by
  have hk : a.toNat % 4 < 4 := Nat.mod_lt _ (by decide)
  have hrev {n : Nat} (hn : n ≤ 4) : ((List.range n).map fun i => 3 - i).Nodup := by
    refine List.nodup_range.map_on fun x hx y hy h => ?_
    rw [List.mem_range] at hx hy
    omega
  cases side <;> cases e <;> simp only [partialPairs, List.map_map, Function.comp_def]
  · exact hrev (by omega)
  · exact hrev (by omega)
  · simpa using List.nodup_range
  · simpa using List.nodup_range

theorem mem_partners {m : Word} : m ∈ partners side e a ↔ ∃ j < 4, partner side e a j = some m := by
  have hlt (q : Nat → Prop) : (∃ j < 4, q j) ↔ q 0 ∨ q 1 ∨ q 2 ∨ q 3 := by
    constructor
    · rintro ⟨j, hj, hq⟩
      interval_cases j
      exacts [.inl hq, .inr (.inl hq), .inr (.inr (.inl hq)), .inr (.inr (.inr hq))]
    · rintro (h | h | h | h)
      exacts [⟨0, by decide, h⟩, ⟨1, by decide, h⟩, ⟨2, by decide, h⟩, ⟨3, by decide, h⟩]
  rw [hlt, partners, List.mem_filterMap]
  simp [eq_comm]

/-- The model's bytes of a partial-word access are the statements'. -/
theorem mem_partialPairs_addresses {m : Word} :
    m ∈ (partialPairs side e a).map Prod.fst ↔ m ∈ partners side e a := by
  simp only [List.mem_map, Prod.exists, exists_and_right, exists_eq_right, mem_partialPairs, mem_partners]

/-- Each byte of the register after a partial-word load: the memory byte that pairs with it, or its own. -/
theorem byteNumber_mergeBytes (s : State) {pairs : List (Word × Nat)} (hlt : ∀ p ∈ pairs, p.2 < 4)
    (hd : (pairs.map Prod.snd).Nodup) (v : Word) {j : Nat} (hj : j < 4) :
    (∀ m, (m, j) ∈ pairs → byteNumber (mergeBytes s v pairs) j = (s.byteAt m).toNat) ∧
      ((∀ m, (m, j) ∉ pairs) → byteNumber (mergeBytes s v pairs) j = byteNumber v j) := by
  induction pairs generalizing v with
  | nil => exact ⟨fun m hm => absurd hm List.not_mem_nil, fun _ => rfl⟩
  | cons p rest ih =>
    obtain ⟨x, k⟩ := p
    rw [List.forall_mem_cons] at hlt
    obtain ⟨hk, hlt⟩ := hlt
    rw [List.map_cons, List.nodup_cons] at hd
    obtain ⟨hnot, hd⟩ := hd
    obtain ⟨hin, hout⟩ := ih hlt hd (setByteOfWord v k (s.byteAt x))
    rw [byteNumber_setByteOfWord v _ hk hj] at hout
    have hrest (m : Word) (h : j = k) : (m, j) ∉ rest := fun hm => by
      subst h
      exact hnot (List.mem_map.2 ⟨(m, j), hm, rfl⟩)
    refine ⟨fun m hm => ?_, fun hm => ?_⟩
    · rw [List.mem_cons, Prod.mk.injEq] at hm
      obtain ⟨rfl, hjk⟩ | hm := hm
      · rw [mergeBytes, hout fun m => hrest m hjk, if_pos hjk]
      · exact hin m hm
    · have hjk : j ≠ k := fun h => hm x (h ▸ List.mem_cons_self)
      rw [mergeBytes, hout fun m hm' => hm m (List.mem_cons_of_mem _ hm'), if_neg hjk]

/-- The word `lwl` and `lwr` leave, by its bytes (R265, R266). -/
theorem byteNumber_loadPartial (s : State) (side : Side) (a v : Word) {j : Nat} (hj : j < 4) :
    byteNumber (mergeBytes s v (partialPairs side s.cfg.endian a)) j =
      match partner side s.cfg.endian a j with
      | some m => (s.byteAt m).toNat
      | none => byteNumber v j := by
  obtain ⟨hin, hout⟩ := byteNumber_mergeBytes s (fun p hp => (mem_partialPairs.1 hp).1)
    (partialPairs_bytes_nodup side s.cfg.endian a) v hj
  split
  case h_1 m hm => exact hin m (mem_partialPairs.2 ⟨hj, hm⟩)
  case h_2 hnone =>
    refine hout fun m hm => ?_
    cases hnone.symm.trans (mem_partialPairs.1 hm).2

/-- The bytes `swl` and `swr` leave (46_store.md R286, R287). -/
theorem byteAt_storePartial (s : State) (side : Side) (a v : Word) (hwf : Memory.wf s.mem = true) {j : Nat} (hj : j < 4)
    {m : Word} (hm : partner side s.cfg.endian a j = some m) :
    ((s.writeBytes (partialCells side s.cfg.endian a v)).byteAt m).toNat = byteNumber v j := by
  rw [byteNumber_eq]
  congr 1
  refine byteAt_writeBytes_mem s _ m _ hwf ?_ (List.mem_map.2 ⟨(m, j), mem_partialPairs.2 ⟨hj, hm⟩, rfl⟩)
  rw [partialCells_addresses]
  exact partialPairs_addresses_nodup ..

/-! ## The checks of an access (R56, R59, R61, R407) -/

theorem readStop_of_allocated {align : Nat} (halign : a.toNat % align = 0) (h : allocated s addrs) :
    readStop s align a addrs = none := (readStop_none _ _ _).2 ⟨halign, h⟩

theorem writeStop_of_writable {align : Nat} (halign : a.toNat % align = 0) (h : writable s addrs) :
    writeStop s align a addrs = none := (writeStop_none _ _ _).2 ⟨halign, h⟩

theorem readStop_of_touches {align : Nat} (halign : a.toNat % align = 0) (h : touches s .unmapped addrs) :
    readStop s align a addrs = some (.raises (.busError a)) := by
  obtain ⟨x, hx, hc⟩ := h
  exact readStop_unmapped align a addrs halign hx hc

theorem writeStop_of_touches {align : Nat} (halign : a.toNat % align = 0) (h : touches s .unmapped addrs) :
    writeStop s align a addrs = some (.raises (.busError a)) := by
  rw [writeStop, readStop_of_touches halign h]

theorem writeStop_of_text {align : Nat} (halign : a.toNat % align = 0) (h : allocated s addrs)
    (htext : touches s .text addrs) : writeStop s align a addrs = some (.refuses (.storeToText a)) := by
  rw [writeStop, readStop_of_allocated halign h]
  exact if_pos ((anyOf_true _ _).2 htext)

/-- Which bytes are touched matters, not their order. -/
theorem touches_congr {c : AddrClass} (h : ∀ x, x ∈ addrs ↔ x ∈ addrs') : touches s c addrs ↔ touches s c addrs' := by
  simp only [touches, h]

theorem allocated_congr (h : ∀ x, x ∈ addrs ↔ x ∈ addrs') : allocated s addrs ↔ allocated s addrs' := by
  simp only [allocated, h]

theorem writable_congr (h : ∀ x, x ∈ addrs ↔ x ∈ addrs') : writable s addrs ↔ writable s addrs' := by
  simp only [writable, h]

/-! ## The meaning of the partial-word instructions -/

theorem exec_partialLoad {rt : Reg} (h : partialLoad i s = some (side, rt, a)) : exec i s = loadPartial side a rt done s := by
  unfold partialLoad at h
  split at h <;> cases h <;> rw [← effectiveAddress_eq_ea] <;> rfl

theorem exec_partialStore (h : partialStore i s = some (side, v, a)) : exec i s = storePartial side a v done s := by
  unfold partialStore at h
  split at h <;> cases h <;> rw [← effectiveAddress_eq_ea] <;> rfl

theorem stores_of_plainLoad {x : LoadKind × Reg × Word} (h : plainLoad i s = some x) : stores i = false := by
  unfold plainLoad at h
  split at h
  case h_6 => cases h
  all_goals rfl

theorem stores_of_plainStore {x : Nat × Word × Word} (h : plainStore i s = some x) : stores i = true := by
  unfold plainStore at h
  split at h
  case h_5 => cases h
  all_goals rfl

theorem stores_of_partialLoad {x : Side × Reg × Word} (h : partialLoad i s = some x) : stores i = false := by
  unfold partialLoad at h
  split at h
  case h_3 => cases h
  all_goals rfl

theorem stores_of_partialStore {x : Side × Word × Word} (h : partialStore i s = some x) : stores i = true := by
  unfold partialStore at h
  split at h
  case h_3 => cases h
  all_goals rfl

/-! ## The obligations -/

/-- Settles O29: past its checks a load writes the number its bytes make. -/
theorem loadsComplete : Obligations.LoadsComplete := by
  refine ⟨fun i s kind rt a h halign hmap => ?plain, fun z rt base offset s halign hmap => ?cop⟩
  case plain =>
    refine setsReg_of_exec ?_
    rw [exec_plainLoad h, loadReg, size_eq_loadBytes, readStop_of_allocated halign hmap, value_eq_loaded]
    rfl
  case cop =>
    have hexec : exec (.lwcz z rt base offset) s = done (s.writeCop z rt (s.wordAt (ea s base offset))) := by
      rw [exec_lwcz, loadCop, readStop_of_allocated halign hmap]
      rfl
    refine ⟨_, hexec, ?_, rfl, frame_trans (frame_writeCop ..) (frame_jump ..), rfl⟩
    rw [State.jump_readCop, readCop_writeCop, if_pos ⟨rfl, rfl⟩, State.wordAt_eq_number]

/-- A plain store whose bytes are all data writes them. -/
theorem storeValue_of_writable {kind : StoreKind} (fin : State → Result) (halign : a.toNat % StoreKind.size kind = 0)
    (h : writable s (bytesFrom a (StoreKind.size kind))) :
    storeValue kind a v fin s = fin (s.writeBytes (StoreKind.cells kind s.cfg.endian a v)) := by
  rw [storeValue, storeCells, storeKind_cells_addresses, writeStop_of_writable halign h]
  rfl

/-- Settles O30: past its checks a store writes the bytes of its value at its own addresses. -/
theorem storesComplete : Obligations.StoresComplete := by
  intro i s count a v h hwf halign hdata
  obtain ⟨kind, rfl, hexec⟩ := exec_plainStore h
  have hframe := frame_writeBytes (cells := StoreKind.cells kind s.cfg.endian a v) hwf
  rw [storeKind_cells_addresses] at hframe
  refine ⟨_, hexec.trans (storeValue_of_writable done halign hdata), ?_, ?_, ?_, ?_⟩
  · rw [number_jump, number_writeCells kind s a v hwf]
  · simp [State.nextPc]
  · simpa using frame_trans hframe (frame_jump _ _)
  · simp

/-- The bytes of every machine access, as the model checks them. -/
theorem exec_access {align : Nat} (h : access i s = some (align, a, addrs)) :
    ∃ addrs', (∀ x, x ∈ addrs' ↔ x ∈ addrs) ∧
      ((stores i = false ∧ ∃ r, exec i s = unlessStop (readStop s align a addrs') s r) ∨
        (stores i = true ∧ ∃ r, exec i s = unlessStop (writeStop s align a addrs') s r)) := by
  unfold access at h
  split at h
  case h_1 count x hacc =>
    cases h
    obtain ⟨kind, rt, hload, rfl⟩ | ⟨v, hstore⟩ | ⟨z, rt, base, offset, rfl, rfl, rfl⟩ := alignedAccess_cases hacc
    · exact ⟨_, fun _ => Iff.rfl,
        .inl ⟨stores_of_plainLoad hload, _, (exec_plainLoad hload).trans (by rw [loadReg, size_eq_loadBytes])⟩⟩
    · obtain ⟨kind, rfl, hexec⟩ := exec_plainStore hstore
      exact ⟨_, fun _ => Iff.rfl,
        .inr ⟨stores_of_plainStore hstore, _, hexec.trans (by rw [storeValue, storeCells, storeKind_cells_addresses])⟩⟩
    · exact ⟨_, fun _ => Iff.rfl, .inl ⟨rfl, _, (exec_lwcz ..).trans rfl⟩⟩
  case h_2 hload _ =>
    cases h
    exact ⟨_, fun _ => mem_partialPairs_addresses, .inl ⟨stores_of_partialLoad hload, _, exec_partialLoad hload⟩⟩
  case h_3 hstore _ _ =>
    cases h
    exact ⟨_, fun _ => mem_partialPairs_addresses, .inr ⟨stores_of_partialStore hstore, _,
      (exec_partialStore hstore).trans (by rw [storePartial, storeCells, partialCells_addresses])⟩⟩
  case h_4 => cases h

/-- Settles O32: the checks of an access come before it, allocation first and program text next. -/
theorem accessFollowsMap : Obligations.AccessFollowsMap := by
  intro i s align a addrs h halign
  obtain ⟨addrs', hmem, ⟨hload, r, hexec⟩ | ⟨hstore, r, hexec⟩⟩ := exec_access h
  · refine ⟨fun hunmapped => ?_, fun hstores => ?_⟩
    · rw [hexec, readStop_of_touches halign ((touches_congr hmem).2 hunmapped)]
      rfl
    · cases hload.symm.trans hstores
  · refine ⟨fun hunmapped => ?_, fun _ hmap htext => ?_⟩
    · rw [hexec, writeStop_of_touches halign ((touches_congr hmem).2 hunmapped)]
      rfl
    · rw [hexec, writeStop_of_text halign ((allocated_congr hmem).2 hmap) ((touches_congr hmem).2 htext)]
      rfl

/-- A partial-word load whose bytes are allocated merges them into the register. -/
theorem loadPartial_of_allocated {rt : Reg} (fin : State → Result) (h : allocated s (partners side s.cfg.endian a)) :
    loadPartial side a rt fin s =
      fin (s.writeReg rt (mergeBytes s (s.readReg rt) (partialPairs side s.cfg.endian a))) := by
  have hstop := readStop_of_allocated (Nat.mod_one a.toNat) ((allocated_congr fun _ => mem_partialPairs_addresses).2 h)
  simp only [loadPartial, hstop, unlessStop_none]

/-- Settles O33: the merged word, byte by byte. -/
theorem partialLoads : Obligations.PartialLoads := by
  intro i s side rt a h hmap
  exact ⟨_, setsReg_of_exec ((exec_partialLoad h).trans (loadPartial_of_allocated done hmap)),
    fun _ hj => byteNumber_loadPartial s side a _ hj⟩

/-- A partial-word store whose bytes are all data writes them. -/
theorem storePartial_of_writable (fin : State → Result) (h : writable s (partners side s.cfg.endian a)) :
    storePartial side a v fin s = fin (s.writeBytes (partialCells side s.cfg.endian a v)) := by
  have hstop := writeStop_of_writable (Nat.mod_one a.toNat) ((writable_congr fun _ => mem_partialPairs_addresses).2 h)
  rw [storePartial, storeCells, partialCells_addresses, hstop, unlessStop_none]

theorem frame_storePartial (hwf : Memory.wf s.mem = true) :
    frame s (s.writeBytes (partialCells side s.cfg.endian a v)) [] [] (partners side s.cfg.endian a) := by
  refine frame_mono (frame_writeBytes hwf) (List.Subset.refl _) (List.Subset.refl _) fun x hx => ?_
  rw [partialCells_addresses] at hx
  exact mem_partialPairs_addresses.1 hx

/-- Settles O34: the written bytes are the paired ones. -/
theorem partialStores : Obligations.PartialStores := by
  intro i s side v a h hwf hdata
  refine ⟨_, (exec_partialStore h).trans (storePartial_of_writable done hdata),
    fun j hj m hm => byteAt_storePartial s side a v hwf hj hm, ?_, ?_, ?_⟩
  · simp [State.nextPc]
  · simpa using frame_trans (frame_storePartial hwf) (frame_jump _ _)
  · simp

/-- A word store that completes leaves the number of its value. -/
theorem number_of_exec_sw {rt base : Reg} {offset : BitVec 16} (hwf : Memory.wf s.mem = true)
    (h : exec (.sw rt base offset) s = .next t) :
    t.cfg = s.cfg ∧ number t (ea s base offset) 4 = (s.readReg rt).toNat := by
  have hexec : exec (.sw rt base offset) s = storeValue .word (ea s base offset) (s.readReg rt) done s := by
    rw [← effectiveAddress_eq_ea]
    rfl
  obtain ⟨-, hdone⟩ := (storeCells_next ..).1 (hexec.symm.trans h)
  have hv := (s.readReg rt).isLt
  have hnumber := number_writeCells .word s (ea s base offset) (s.readReg rt) hwf
  rw [StoreKind.size, Nat.mod_eq_of_lt (by omega)] at hnumber
  obtain rfl := done_next.1 hdone
  exact ⟨by simp, by rw [number_jump, hnumber]⟩

/-- Where the first byte and the last two bytes of a word stand in its number. -/
theorem number_parts (s : State) (a : Word) :
    (s.cfg.endian = .little →
      number s a 1 = number s a 4 % 256 ∧ number s (a + 2#32) 2 = number s a 4 / 65536) ∧
    (s.cfg.endian = .big →
      number s a 1 = number s a 4 / 16777216 ∧ number s (a + 2#32) 2 = number s a 4 % 65536) := by
  have h13 := number_add s a 1 3
  have h22 := number_add s a 2 2
  have l1 := number_lt s a 1
  have l2 := number_lt s a 2
  have l2' := number_lt s (a + 2#32) 2
  have l3 := number_lt s (a + 1#32) 3
  refine ⟨fun he => ?_, fun he => ?_⟩
  all_goals
    rw [he] at h13 h22
    simp only [Nat.reduceAdd] at h13 h22
    omega

/-- Settles O36: the number of the stored word is split into that of its first byte or halfword and the rest. -/
theorem mixedWidths : Obligations.MixedWidths := by
  have hsplit : ∀ s t rt base offset, Memory.wf s.mem = true → exec (.sw rt base offset) s = .next t →
      let a := ea s base offset
      let v := (s.readReg rt).toNat
      (s.cfg.endian = .little → number t a 1 = v % 256 ∧ number t (a + 2#32) 2 = v / 65536) ∧
      (s.cfg.endian = .big → number t a 1 = v / 16777216 ∧ number t (a + 2#32) 2 = v % 65536) := by
    intro s t rt base offset hwf h
    obtain ⟨hcfg, hnumber⟩ := number_of_exec_sw hwf h
    have hparts := number_parts t (ea s base offset)
    rwa [hcfg, hnumber] at hparts
  refine ⟨hsplit, fun s t rt base offset hwf hv h => ?_⟩
  have hvalue := hsplit s t rt base offset hwf h
  rwa [hv] at hvalue

/-! ## The pair of partial-word loads that reads an unaligned word (R264) -/

/-- Where byte `j` of the word at `low` stands. -/
def slot (e : Endian) (low : Word) (j : Nat) : Word :=
  match e with
  | .little => low + BitVec.ofNat 32 j
  | .big => low + BitVec.ofNat 32 (3 - j)

/-- The side that starts at the lowest byte of an unaligned word. -/
def lowSide : Endian → Side
  | .little => .right
  | .big => .left

/-- The side that ends at its highest byte. -/
def highSide : Endian → Side
  | .little => .left
  | .big => .right

theorem slot_mem (e : Endian) (low : Word) {j : Nat} (hj : j < 4) : slot e low j ∈ bytesFrom low 4 := by
  have h2 : low + 1#32 + 1#32 = low + 2#32 := by bv_omega
  have h3 : low + 2#32 + 1#32 = low + 3#32 := by bv_omega
  simp only [bytesFrom, h2, h3]
  interval_cases j <;> cases e <;> simp [slot]

/-- What the two loads pair with are bytes of the word, and each of its bytes pairs in one of them. -/
theorem partner_low_high (e : Endian) (low : Word) {j : Nat} (hj : j < 4) :
    (partner (lowSide e) e low j = some (slot e low j) ∨ partner (lowSide e) e low j = none) ∧
      (partner (highSide e) e (low + 3#32) j = some (slot e low j) ∨ partner (highSide e) e (low + 3#32) j = none) ∧
      (partner (lowSide e) e low j = none → partner (highSide e) e (low + 3#32) j ≠ none) := by
  have hmod : (low + 3#32).toNat % 4 = (low.toNat % 4 + 3) % 4 := by
    rw [BitVec.toNat_add]
    simp
  have hback (x : Nat) (hx : x ≤ 3) : low + 3#32 - BitVec.ofNat 32 (3 - x) = low + BitVec.ofNat 32 x := by
    interval_cases x <;> bv_omega
  cases e
  · simp only [lowSide, highSide, partner, slot, hmod, hback j (by omega)]
    refine ⟨by split_ifs <;> simp, by split_ifs <;> simp, fun hlow => ?_⟩
    rw [ite_eq_right_iff] at hlow
    simp only [ne_eq, ite_eq_right_iff, not_forall]
    have hout := mt hlow
    refine ⟨by simp at hout; omega, by simp⟩
  · have hj' := hback (3 - j) (by omega)
    rw [Nat.sub_sub_self (by omega)] at hj'
    simp only [lowSide, highSide, partner, slot, hmod, hj']
    refine ⟨by split_ifs <;> simp, by split_ifs <;> simp, fun hlow => ?_⟩
    rw [ite_eq_right_iff] at hlow
    simp only [ne_eq, ite_eq_right_iff, not_forall]
    have hout := mt hlow
    refine ⟨by simp at hout; omega, by simp⟩

/-- A load whose pairs are bytes of the word at `low`: it completes, and its bytes are those or the register's own. -/
theorem exec_partialLoad_within {rt : Reg} {low : Word} (hrt : rt ≠ 0#5) (h : partialLoad i s = some (side, rt, a))
    (hmap : allocated s (bytesFrom low 4))
    (hslot : ∀ j < 4, partner side s.cfg.endian a j = some (slot s.cfg.endian low j) ∨
      partner side s.cfg.endian a j = none) :
    ∃ t, exec i s = .next t ∧ t.pc = s.pc + 4#32 ∧ frame s t [rt] [] [] ∧
      ∀ j < 4, byteNumber (t.readReg rt) j =
        if partner side s.cfg.endian a j = none then byteNumber (s.readReg rt) j
        else (s.byteAt (slot s.cfg.endian low j)).toNat := by
  have hpartners : allocated s (partners side s.cfg.endian a) := by
    intro x hx
    obtain ⟨j, hj, hpartner⟩ := mem_partners.1 hx
    obtain hsome | hnone := hslot j hj
    · cases hpartner.symm.trans hsome
      exact hmap _ (slot_mem _ low hj)
    · cases hpartner.symm.trans hnone
  refine ⟨_, (exec_partialLoad h).trans (loadPartial_of_allocated done hpartners), rfl,
    frame_trans (frame_writeReg ..) (frame_jump ..), fun j hj => ?_⟩
  rw [State.jump_readReg, readReg_writeReg_same _ hrt, byteNumber_loadPartial s side a _ hj]
  obtain hsome | hnone := hslot j hj
  · rw [hsome, if_neg (by simp)]
  · rw [hnone, if_pos rfl]

/-- A word is the number at `low` when its bytes are the bytes there. -/
theorem eq_number_of_bytes {low v : Word} (h : ∀ j < 4, byteNumber v j = (s.byteAt (slot s.cfg.endian low j)).toNat) :
    v = BitVec.ofNat 32 (number s low 4) := by
  have h2 : low + 1#32 + 1#32 = low + 2#32 := by bv_omega
  have h3 : low + 2#32 + 1#32 = low + 3#32 := by bv_omega
  have hnumber : v.toNat = number s low 4 := by
    rw [toNat_eq_bytes, h 0 (by decide), h 1 (by decide), h 2 (by decide), h 3 (by decide)]
    simp only [number, slot, h2, h3]
    cases s.cfg.endian <;> simp <;> omega
  rw [← hnumber, BitVec.ofNat_toNat, BitVec.setWidth_eq]

/-- Two loads of the parts of the word at `low`, each byte in one of them, leave the word. -/
theorem exec_unalignedPair {rt : Reg} {low x y : Word} {first second : Instr} {side' : Side} (hrt : rt ≠ 0#5)
    (hfirst : partialLoad first s = some (side, rt, x))
    (hsecond : ∀ t, frame s t [rt] [] [] → partialLoad second t = some (side', rt, y))
    (hmap : allocated s (bytesFrom low 4))
    (hslot : ∀ j < 4, partner side s.cfg.endian x j = some (slot s.cfg.endian low j) ∨
      partner side s.cfg.endian x j = none)
    (hslot' : ∀ j < 4, partner side' s.cfg.endian y j = some (slot s.cfg.endian low j) ∨
      partner side' s.cfg.endian y j = none)
    (hcover : ∀ j < 4, partner side' s.cfg.endian y j = none → partner side s.cfg.endian x j ≠ none) :
    ∃ t u, exec first s = .next t ∧ exec second t = .next u ∧ u.readReg rt = BitVec.ofNat 32 (number s low 4) ∧
      u.pc = s.pc + 8#32 ∧ frame s u [rt] [] [] := by
  obtain ⟨t, ht, htpc, htframe, htbytes⟩ := exec_partialLoad_within hrt hfirst hmap hslot
  obtain ⟨-, -, -, -, hmem, -, -, hcfg, -⟩ := id htframe
  have hclass (m : Word) : t.classAt m = s.classAt m := by rw [State.classAt, State.classAt, hcfg]
  obtain ⟨u, hu, hupc, huframe, hubytes⟩ := exec_partialLoad_within (low := low) hrt (hsecond t htframe)
    (fun m hm => (hclass m).symm ▸ hmap m hm) (by rw [hcfg]; exact hslot')
  refine ⟨t, u, ht, hu, eq_number_of_bytes fun j hj => ?_, ?_,
    frame_mono (frame_trans htframe huframe) (by simp) (by simp) (by simp)⟩
  · rw [hubytes j hj, hcfg, hmem _ List.not_mem_nil]
    split_ifs with hnone
    · rw [htbytes j hj, if_neg (hcover j hj hnone)]
    · rfl
  · rw [hupc, htpc, BitVec.add_assoc]
    rfl

/-- Settles O35: of the four bytes of the word, each pairs in one of the two loads, whichever comes first. -/
theorem unalignedPairReadsWord : Obligations.UnalignedPairReadsWord := by
  intro s rt base low high first second hrt hbase hhigh hmap hpair
  have hea (t : State) (offset : BitVec 16) (hframe : frame s t [rt] [] []) : ea t base offset = ea s base offset := by
    obtain ⟨hregs, -⟩ := hframe
    rw [ea, ea, hregs base (by simpa using hbase)]
  have hparts (j : Nat) (hj : j < 4) := partner_low_high s.cfg.endian (ea s base low) hj
  rw [← hhigh] at hparts
  have hlow (j : Nat) (hj : j < 4) := And.left (hparts j hj)
  have hhigh (j : Nat) (hj : j < 4) := And.left (And.right (hparts j hj))
  have hcover (j : Nat) (hj : j < 4) := And.right (And.right (hparts j hj))
  have hlowFirst (first second : Instr) (hf : partialLoad first s = some (lowSide s.cfg.endian, rt, ea s base low))
      (hs : ∀ t, partialLoad second t = some (highSide s.cfg.endian, rt, ea t base high)) :=
    exec_unalignedPair hrt hf (fun t ht => hea t high ht ▸ hs t) hmap hlow hhigh
      fun j hj h h' => hcover j hj h' h
  have hhighFirst (first second : Instr) (hf : partialLoad first s = some (highSide s.cfg.endian, rt, ea s base high))
      (hs : ∀ t, partialLoad second t = some (lowSide s.cfg.endian, rt, ea t base low)) :=
    exec_unalignedPair hrt hf (fun t ht => hea t low ht ▸ hs t) hmap hhigh hlow hcover
  revert hpair hlowFirst hhighFirst
  cases s.cfg.endian
  · rintro (⟨rfl, rfl⟩ | ⟨rfl, rfl⟩) hlowFirst hhighFirst
    · exact hlowFirst _ _ rfl fun _ => rfl
    · exact hhighFirst _ _ rfl fun _ => rfl
  · rintro (⟨rfl, rfl⟩ | ⟨rfl, rfl⟩) hlowFirst hhighFirst
    · exact hlowFirst _ _ rfl fun _ => rfl
    · exact hhighFirst _ _ rfl fun _ => rfl

end Sys2Proof.Machine
end

section
/-! What no instruction reads (10_state.md R26, R31; 49_exception_trap_syscall.md R376): an instruction commutes with a
change of the part of the state it neither reads nor writes. -/

namespace Sys2Proof.Machine

open Sys2Proof.Claims

/-! ## A change of `hi`, `lo`, `status` and the output -/

/-- A change of the four parts of the state that few instructions read. -/
structure Change where
  hi : Word → Word := id
  lo : Word → Word := id
  status : Word → Word := id
  out : List OutputEvent → List OutputEvent := id

/-- `hi` and `lo` changed to given values. -/
def Change.setHiLo (h l : Word) : Change := { hi := fun _ => h, lo := fun _ => l }

/-- `status` changed to a given value. -/
def Change.setStatus (v : Word) : Change := { status := fun _ => v }

/-- The output changed to a given one. -/
def Change.setOutput (o : List OutputEvent) : Change := { out := fun _ => o }

/-- The state with its four parts changed. -/
def Change.apply (g : Change) (s : State) : State :=
  { s with hi := g.hi s.hi, lo := g.lo s.lo, status := g.status s.status, out := g.out s.out }

/-- The outcome with the state it goes on in changed. -/
def Change.onResult (g : Change) (r : Result) : Result :=
  match r with
  | .next t => .next (g.apply t)
  | .fault f => .fault f
  | .refused f => .refused f

variable {g : Change} {s t u : State} {i : Instr} {r r' : Result}

theorem withoutHiLo_onResult (h l : Word) (r : Result) :
    withoutHiLo ((Change.setHiLo h l).onResult r) = withoutHiLo r := by
  cases r <;> rfl

theorem withoutStatus_onResult (v : Word) (r : Result) :
    withoutStatus ((Change.setStatus v).onResult r) = withoutStatus r := by
  cases r <;> rfl

theorem withoutOutput_onResult (o : List OutputEvent) (r : Result) :
    withoutOutput ((Change.setOutput o).onResult r) = withoutOutput r := by
  cases r <;> rfl

/-! ## The shared operations commute with it -/

theorem done_apply (h : t = g.apply u) : done t = g.onResult (done u) := by
  rw [h]
  rfl

theorem stopWith_apply (c : Stop) : stopWith c (g.apply s) = g.onResult (stopWith c s) := by cases c <;> rfl

/-- The checks read nothing of what is changed, so they find the same stop. -/
theorem unlessStop_apply {c : Option Stop} (h : r' = g.onResult r) :
    unlessStop c (g.apply s) r' = g.onResult (unlessStop c s r) := by
  cases c with
  | none => exact h
  | some stop => exact stopWith_apply stop

theorem writeBytes_apply (cells : List (Word × Byte)) :
    (g.apply s).writeBytes cells = g.apply (s.writeBytes cells) := by
  induction cells generalizing s with
  | nil => rfl
  | cons cell rest ih => exact ih (s := s.writeByte cell.1 cell.2)

theorem mergeBytes_apply (v : Word) (pairs : List (Word × Nat)) :
    mergeBytes (g.apply s) v pairs = mergeBytes s v pairs := by
  induction pairs generalizing v with
  | nil => rfl
  | cons pair rest ih => exact ih (setByteOfWord v pair.2 (s.byteAt pair.1))

theorem value_apply (kind : LoadKind) (a : Word) : LoadKind.value kind (g.apply s) a = LoadKind.value kind s a := by
  cases kind <;> rfl

theorem settleSingle_apply (fd : Reg) (result : Option Word) :
    settleSingle fd result (g.apply s) = g.apply (settleSingle fd result s) := by
  cases result <;> rfl

theorem settleDouble_apply (fd : Reg) (result : Option DWord) :
    settleDouble fd result (g.apply s) = g.apply (settleDouble fd result s) := by
  cases result <;> rfl

theorem settleInteger_apply (fd : Reg) (result : Option Word) :
    settleInteger fd result (g.apply s) = g.apply (settleInteger fd result s) := by
  cases result <;> rfl

theorem setRegOrOverflow_apply (rd : Reg) (x : Int) :
    setRegOrOverflow rd x done (g.apply s) = g.onResult (setRegOrOverflow rd x done s) := by
  unfold setRegOrOverflow
  split <;> rfl

theorem loadReg_apply (kind : LoadKind) (align : Nat) (a : Word) (rt : Reg) :
    loadReg kind align a rt done (g.apply s) = g.onResult (loadReg kind align a rt done s) :=
  unlessStop_apply (by rw [value_apply]; rfl)

theorem loadPartial_apply (side : Side) (a : Word) (rt : Reg) :
    loadPartial side a rt done (g.apply s) = g.onResult (loadPartial side a rt done s) :=
  unlessStop_apply (by rw [mergeBytes_apply]; rfl)

theorem storeCells_apply (align : Nat) (a : Word) (cells : List (Word × Byte)) :
    storeCells align a cells done (g.apply s) = g.onResult (storeCells align a cells done s) :=
  unlessStop_apply (by rw [writeBytes_apply]; rfl)

theorem linkingBranch_apply (rel : Relation) (rs : Reg) (offset : BitVec 16) :
    linkingBranch rel rs offset (g.apply s) = g.onResult (linkingBranch rel rs offset s) := by
  unfold linkingBranch
  split <;> rfl

theorem branchOnFlag_apply (z : CopNum) (value : Bool) (offset : BitVec 16) :
    branchOnFlag z value offset (g.apply s) = g.onResult (branchOnFlag z value offset s) := by
  unfold branchOnFlag
  split <;> rfl

theorem execJalr_apply (rd rs : Reg) : execJalr rd rs (g.apply s) = g.onResult (execJalr rd rs s) := by
  unfold execJalr
  split <;> rfl

/-! ## The multiply and divide unit, `rfe` and the services -/

theorem writeHiLo_apply (hhi : g.hi = id) (hlo : g.lo = id) (h l : Word) :
    (g.apply s).writeHiLo h l = g.apply (s.writeHiLo h l) := by
  simp [Change.apply, State.writeHiLo, hhi, hlo]

theorem drawHiLo_apply (hhi : g.hi = id) (hlo : g.lo = id) : drawHiLo (g.apply s) = g.apply (drawHiLo s) := by
  simp [Change.apply, drawHiLo, State.writeHiLo, State.afterDraws, hhi, hlo]

theorem divideSigned_apply (hhi : g.hi = id) (hlo : g.lo = id) (a b : Word) :
    divideSigned a b done (g.apply s) = g.onResult (divideSigned a b done s) := by
  unfold divideSigned
  split_ifs
  · exact done_apply (drawHiLo_apply hhi hlo)
  · rfl
  · exact done_apply (writeHiLo_apply hhi hlo _ _)

theorem divideUnsigned_apply (hhi : g.hi = id) (hlo : g.lo = id) (a b : Word) :
    divideUnsigned a b done (g.apply s) = g.onResult (divideUnsigned a b done s) := by
  unfold divideUnsigned
  split_ifs
  · exact done_apply (drawHiLo_apply hhi hlo)
  · exact done_apply (writeHiLo_apply hhi hlo _ _)

theorem execRfe_apply (hst : g.status = id) : execRfe (g.apply s) = g.onResult (execRfe s) := by
  have happly : (g.apply s).restoreStatus = g.apply s.restoreStatus := by
    simp [Change.apply, State.restoreStatus, hst]
  have hcfg : (g.apply s).cfg.statusRestore = s.cfg.statusRestore := rfl
  unfold execRfe returnFromException
  rw [hcfg]
  cases s.cfg.statusRestore
  · rfl
  · exact done_apply happly

theorem stringAt_apply (start a : Word) (fuel : Nat) :
    stringAt (g.apply s) start fuel a = stringAt s start fuel a := by
  induction fuel generalizing a with
  | zero => rfl
  | succ fuel ih =>
    unfold stringAt
    rw [ih]
    rfl

theorem bufferStop_apply (n : Nat) (a : Word) : bufferStop (g.apply s) n a = bufferStop s n a := by
  induction n generalizing a with
  | zero => rfl
  | succ n ih =>
    unfold bufferStop
    rw [ih]
    rfl

theorem afterWord_apply : (g.apply s).afterWord = g.apply s.afterWord := by
  have h : (g.apply s).inWords = s.inWords := rfl
  unfold State.afterWord
  rw [h]
  cases s.inWords <;> rfl

theorem afterDouble_apply : (g.apply s).afterDouble = g.apply s.afterDouble := by
  have h : (g.apply s).inDoubles = s.inDoubles := rfl
  unfold State.afterDouble
  rw [h]
  cases s.inDoubles <;> rfl

theorem afterLine_apply : (g.apply s).afterLine = g.apply s.afterLine := by
  have h : (g.apply s).inLines = s.inLines := rfl
  unfold State.afterLine
  rw [h]
  cases s.inLines <;> rfl

theorem fillBuffer_apply (str : List Byte) (n : Nat) : fillBuffer str n (g.apply s) = g.apply (fillBuffer str n s) := by
  unfold fillBuffer
  have hdraws : (g.apply s).draws = s.draws := rfl
  have hreg : (g.apply s).readReg 4#5 = s.readReg 4#5 := rfl
  rw [hdraws, hreg, writeBytes_apply]
  rfl

theorem readString_apply : readString (g.apply s) = g.onResult (readString s) := by
  have hreg (r : Reg) : (g.apply s).readReg r = s.readReg r := rfl
  have hline : (g.apply s).inputLine = s.inputLine := rfl
  unfold readString
  simp only [hreg, hline, bufferStop_apply, afterLine_apply, fillBuffer_apply]
  split
  · rfl
  · refine unlessStop_apply ?_
    split <;> rfl

theorem emit_apply (hout : g.out = id) (e : OutputEvent) : (g.apply s).emit e = g.apply (s.emit e) := by
  simp [Change.apply, State.emit, hout]

theorem printString_apply (hout : g.out = id) : printString (g.apply s) = g.onResult (printString s) := by
  have hreg : (g.apply s).readReg 4#5 = s.readReg 4#5 := rfl
  unfold printString
  rw [hreg, stringAt_apply]
  split
  · exact done_apply (emit_apply hout _)
  · exact stopWith_apply _

/-- The codes of the services that append to the output. -/
def printCodes : List Word := [1#32, 2#32, 3#32, 4#32, 11#32]

/-- A service commutes with a change, one that prints with a change that leaves the output alone. -/
theorem service_apply {code : Word} (hout : code ∈ printCodes → g.out = id) :
    service code (g.apply s) = g.onResult (service code s) := by
  unfold service
  split
  case h_1 | h_2 | h_3 | h_10 => exact done_apply (emit_apply (hout (by decide)) _)
  case h_4 => exact printString_apply (hout (by decide))
  case h_5 | h_6 | h_11 => exact done_apply (by rw [afterWord_apply]; rfl)
  case h_7 => exact done_apply (by rw [afterDouble_apply]; rfl)
  case h_8 => exact readString_apply
  case h_9 => rfl
  case h_12 => rfl

theorem withoutOutput_printString (o : List OutputEvent) :
    withoutOutput (printString { s with out := o }) = withoutOutput (printString s) := by
  have hreg : ((Change.setOutput o).apply s).readReg 4#5 = s.readReg 4#5 := rfl
  change withoutOutput (printString ((Change.setOutput o).apply s)) = _
  unfold printString
  rw [hreg, stringAt_apply]
  split
  · rfl
  · rw [stopWith_apply, withoutOutput_onResult]

/-- A service that prints puts its event after the output, whatever that is. -/
theorem withoutOutput_service {code : Word} (o : List OutputEvent) (hcode : code ∈ printCodes) :
    withoutOutput (service code { s with out := o }) = withoutOutput (service code s) := by
  simp only [printCodes, List.mem_cons, List.not_mem_nil, or_false] at hcode
  obtain rfl | rfl | rfl | rfl | rfl := hcode
  case inr.inr.inr.inl => exact withoutOutput_printString o
  all_goals rfl

/-! ## Every instruction -/

/-- An instruction commutes with a change of what it neither reads nor writes. -/
theorem exec_apply (hhilo : writesHiLo i = true ∨ (∃ rd, i = .mfhi rd ∨ i = .mflo rd) → g.hi = id ∧ g.lo = id)
    (hst : i = .rfe → g.status = id) (hout : i = .syscall → s.readReg 2#5 ∈ printCodes → g.out = id) :
    exec i (g.apply s) = g.onResult (exec i s) := by
  cases i
  case add | addi | sub => exact setRegOrOverflow_apply ..
  case mult | multu | mthi | mtlo =>
    obtain ⟨hhi, hlo⟩ := hhilo (.inl rfl)
    refine done_apply ?_
    simp [Change.apply, State.writeHiLo, State.readReg, hhi, hlo]
  case div =>
    obtain ⟨hhi, hlo⟩ := hhilo (.inl rfl)
    exact divideSigned_apply hhi hlo _ _
  case divu =>
    obtain ⟨hhi, hlo⟩ := hhilo (.inl rfl)
    exact divideUnsigned_apply hhi hlo _ _
  case mfhi rd =>
    obtain ⟨hhi, -⟩ := hhilo (.inr ⟨rd, .inl rfl⟩)
    refine done_apply ?_
    simp [Change.apply, State.writeReg, hhi]
  case mflo rd =>
    obtain ⟨-, hlo⟩ := hhilo (.inr ⟨rd, .inr rfl⟩)
    refine done_apply ?_
    simp [Change.apply, State.writeReg, hlo]
  case bgezal | bltzal => exact linkingBranch_apply ..
  case bczt | bczf => exact branchOnFlag_apply ..
  case jalr => exact execJalr_apply ..
  case lb | lbu | lh | lhu | lw => exact loadReg_apply ..
  case lwl | lwr => exact loadPartial_apply ..
  case sb | sh | sw | swcz | swl | swr => exact storeCells_apply ..
  case absD | addD | cvtDS | cvtDW | divD | mulD | negD | subD =>
    exact unlessStop_apply (done_apply (settleDouble_apply ..))
  case absS | addS | cvtSD | cvtSW | divS | mulS | negS | subS =>
    exact unlessStop_apply (done_apply (settleSingle_apply ..))
  case cvtWD | cvtWS => exact unlessStop_apply (done_apply (settleInteger_apply ..))
  case lwcz | cEqD | cEqS | cLeD | cLeS | cLtD | cLtS | movD | movS => exact unlessStop_apply rfl
  case rfe => exact execRfe_apply (hst rfl)
  case syscall => exact service_apply (hout rfl)
  all_goals rfl

/-- An instruction that writes `hi` and `lo` from other registers overwrites what was changed; a move to one of them
keeps the other. -/
theorem withoutHiLo_exec (h l : Word) (hi : writesHiLo i = true) :
    withoutHiLo (exec i { s with hi := h, lo := l }) = withoutHiLo (exec i s) := by
  cases i
  case mult | multu | mthi | mtlo => rfl
  case div rs rt =>
    show withoutHiLo (divideSigned (s.readReg rs) (s.readReg rt) done _) = _
    simp only [exec, execDiv, divideSigned]
    split_ifs <;> rfl
  case divu rs rt =>
    show withoutHiLo (divideUnsigned (s.readReg rs) (s.readReg rt) done _) = _
    simp only [exec, execDivu, divideUnsigned]
    split_ifs <;> rfl
  all_goals cases hi

/-- Settles O14: an instruction commutes with a change of the part of the state it neither reads nor writes. -/
theorem unreadStateIsUnread : Obligations.UnreadStateIsUnread := by
  unfold Obligations.UnreadStateIsUnread
  refine ⟨fun i s h l hmove => ?_, fun i s v hrfe => ?_, fun i s o => ?_⟩
  · cases hw : writesHiLo i with
    | true => exact withoutHiLo_exec h l hw
    | false =>
      have hcomm := exec_apply (g := .setHiLo h l) (i := i) (s := s)
        (by simp_all) (fun _ => rfl) fun _ _ => rfl
      exact (congrArg withoutHiLo hcomm).trans (withoutHiLo_onResult h l _)
  · have hcomm := exec_apply (g := .setStatus v) (i := i) (s := s) (fun _ => ⟨rfl, rfl⟩)
      (fun hi => absurd hi hrfe) fun _ _ => rfl
    exact (congrArg withoutStatus hcomm).trans (withoutStatus_onResult v _)
  · by_cases hprint : i = .syscall ∧ s.readReg 2#5 ∈ printCodes
    · obtain ⟨rfl, hcode⟩ := hprint
      exact withoutOutput_service o hcode
    · have hcomm := exec_apply (g := .setOutput o) (i := i) (s := s) (fun _ => ⟨rfl, rfl⟩) (fun _ => rfl)
        fun hi hcode => absurd ⟨hi, hcode⟩ hprint
      exact (congrArg withoutOutput hcomm).trans (withoutOutput_onResult o _)

end Sys2Proof.Machine
end

section
/-! The services that read (49_exception_trap_syscall.md R382 to R385, R388): each takes the first answer that waits, or
draws one, and writes it to its register or its buffer. -/

namespace Sys2Proof.Machine

open Sys2Proof.Claims

variable {s t u : State} {a : Word} {str line : List Byte} {k m n : Nat}

/-! ## The frames of the floating-point writes -/

theorem frame_writeSingle (s : State) (j : Reg) (v : Word) : frame s (s.writeSingle j v) [] [(1#2, j)] [] :=
  frame_writeCop s 1#2 j v

theorem frame_writeDouble (s : State) (j : Reg) (v : DWord) :
    frame s (s.writeDouble j v) [] [(1#2, j), (1#2, j + 1#5)] [] :=
  frame_trans (frame_writeSingle s j _) (frame_writeSingle _ (j + 1#5) _)

/-! ## The host's answers -/

/-- A state that differs from another in what waits on the console and in the count of draws alone. -/
def answeredFrom (s t : State) : Prop :=
  ∃ words doubles lines draws, t = { s with inWords := words, inDoubles := doubles, inLines := lines, draws := draws }

theorem answeredFrom_refl (s : State) : answeredFrom s s := ⟨_, _, _, _, rfl⟩

theorem answeredFrom_afterWord (s : State) : answeredFrom s s.afterWord := by
  unfold State.afterWord
  split <;> exact ⟨_, _, _, _, rfl⟩

theorem answeredFrom_afterDouble (s : State) : answeredFrom s s.afterDouble := by
  unfold State.afterDouble
  split <;> exact ⟨_, _, _, _, rfl⟩

theorem answeredFrom_afterLine (s : State) : answeredFrom s s.afterLine := by
  unfold State.afterLine
  split <;> exact ⟨_, _, _, _, rfl⟩

theorem afterWord_of_cons {w : Word} {rest : List Word} (h : s.inWords = w :: rest) :
    s.inputWord = w ∧ s.afterWord = { s with inWords := rest } := by
  simp [State.inputWord, State.afterWord, h]

theorem afterWord_of_nil (h : s.inWords = []) :
    s.inputWord = Config.hostWord s.draws ∧ s.afterWord = s.afterDraws 1 := by
  simp [State.inputWord, State.afterWord, h]

theorem afterDouble_of_cons {d : DWord} {rest : List DWord} (h : s.inDoubles = d :: rest) :
    s.inputDouble = d ∧ s.afterDouble = { s with inDoubles := rest } := by
  simp [State.inputDouble, State.afterDouble, h]

theorem afterDouble_of_nil (h : s.inDoubles = []) :
    s.inputDouble = Config.hostDouble s.draws ∧ s.afterDouble = s.afterDraws 1 := by
  simp [State.inputDouble, State.afterDouble, h]

theorem afterLine_inLines (s : State) : s.afterLine.inLines = s.inLines.tail := by
  unfold State.afterLine
  split <;> simp [*]

/-- What a read service writes after the host's answer is the frame of the service. -/
theorem reads_of_exec {ds : List Reg} {cs : List (CopNum × Reg)} {addrs : List Word} (h : exec .syscall s = done u)
    (ht : answeredFrom s t) (hf : frame t u ds cs addrs) (hpc : u.pc = s.pc) :
    reads s (u.jump u.nextPc) ds cs addrs := by
  obtain ⟨words, doubles, lines, draws, rfl⟩ := ht
  obtain ⟨hregs, hcop, hflags, hhilo, hmem, ⟨hout, -⟩, hrun⟩ := hf
  exact ⟨h, congrArg (· + 4#32) hpc, hregs, hcop, hflags, hhilo, hmem, hout, hrun⟩

/-! ## Services 5, 6, 7 and 12 -/

theorem exec_readWord (hcode : s.readReg 2#5 = 5#32 ∨ s.readReg 2#5 = 12#32) :
    exec .syscall s = done (s.afterWord.writeReg 2#5 s.inputWord) := by
  obtain hcode | hcode := hcode
  · exact exec_syscall hcode
  · exact exec_syscall hcode

/-- Settles O50: each service writes the first answer that waits, or a drawn one, after taking it from its queue. -/
theorem readServices : Obligations.ReadServices := by
  refine ⟨fun s hcode => ⟨_, reads_of_exec (exec_readWord hcode) (answeredFrom_afterWord s)
      (frame_writeReg _ 2#5 _) (by simp), fun w rest h => ?_, fun h => ?_⟩,
    fun s hcode => ⟨_, reads_of_exec (exec_syscall hcode) (answeredFrom_afterWord s)
      (frame_writeSingle _ 0#5 _) (by simp), fun w rest h => ?_, fun h => ?_⟩,
    fun s hcode => ⟨_, reads_of_exec (exec_syscall hcode) (answeredFrom_afterDouble s)
      (frame_writeDouble _ 0#5 _) (by simp), fun d rest h => ?_, fun h => ?_⟩⟩
  case refine_1 | refine_3 =>
    obtain ⟨hin, hafter⟩ := afterWord_of_cons h
    simp [hin, hafter, readReg_writeReg, readSingle_writeSingle]
  case refine_2 | refine_4 =>
    obtain ⟨hin, hafter⟩ := afterWord_of_nil h
    simp [hin, hafter, readReg_writeReg, readSingle_writeSingle, State.afterDraws, h]
  case refine_5 =>
    obtain ⟨hin, hafter⟩ := afterDouble_of_cons h
    simp [hin, hafter, readDouble_writeDouble]
  case refine_6 =>
    obtain ⟨hin, hafter⟩ := afterDouble_of_nil h
    simp [hin, hafter, readDouble_writeDouble, State.afterDraws, h]

/-! ## The buffer of service 8 -/

theorem bytesFrom_eq_map (a : Word) (n : Nat) : bytesFrom a n = (List.range n).map fun k => a + BitVec.ofNat 32 k := by
  induction n generalizing a with
  | zero => rfl
  | succ n ih =>
    rw [bytesFrom_succ, ih, List.range_succ_eq_map, List.map_cons, List.map_map, BitVec.add_zero]
    simp only [Function.comp_def, add_one_add_ofNat]

/-- No address comes twice in a buffer that memory can hold. -/
theorem bytesFrom_nodup (a : Word) (hn : n ≤ 2 ^ 32) : (bytesFrom a n).Nodup := by
  rw [bytesFrom_eq_map]
  refine List.nodup_range.map_on fun x hx y hy h => ?_
  rw [List.mem_range] at hx hy
  bv_omega

theorem writable_bytesFrom : writable s (bytesFrom a n) ↔ ∀ k < n, s.classAt (a + BitVec.ofNat 32 k) = .data := by
  simp [writable, bytesFrom_eq_map]

/-- The check passes the bytes that are data. -/
theorem bufferStop_of_data (h : ∀ j < k, s.classAt (a + BitVec.ofNat 32 j) = .data) :
    bufferStop s (k + m) a = bufferStop s m (a + BitVec.ofNat 32 k) := by
  induction k generalizing a with
  | zero => rw [Nat.zero_add, BitVec.add_zero]
  | succ k ih =>
    have hfirst : s.classAt a = .data := BitVec.add_zero a ▸ h 0 k.succ_pos
    rw [Nat.succ_add, bufferStop, hfirst, ← add_one_add_ofNat a k]
    refine ih fun j hj => ?_
    rw [add_one_add_ofNat]
    exact h (j + 1) (Nat.succ_lt_succ hj)

/-- The first byte that is not data stops the check, with its own address. -/
theorem bufferStop_at (hk : k < n) (h : ∀ j < k, s.classAt (a + BitVec.ofNat 32 j) = .data) :
    (s.classAt (a + BitVec.ofNat 32 k) = .unmapped →
      bufferStop s n a = some (.raises (.busError (a + BitVec.ofNat 32 k)))) ∧
    (s.classAt (a + BitVec.ofNat 32 k) = .text →
      bufferStop s n a = some (.refuses (.storeToText (a + BitVec.ofNat 32 k)))) := by
  obtain ⟨m, rfl⟩ := Nat.exists_eq_add_of_lt hk
  rw [Nat.add_assoc, bufferStop_of_data h, bufferStop]
  constructor <;> intro hclass <;> rw [hclass]

theorem length_bufferBytes (h : str.length < n) (draws : Nat) : (bufferBytes str n draws).length = n := by
  simp [bufferBytes]
  omega

/-- The cells service 8 writes, as many as the buffer is long. -/
theorem fillBuffer_addresses (h : str.length < n) (draws : Nat) :
    ((bytesFrom a n).zip (bufferBytes str n draws)).map Prod.fst = bytesFrom a n := by
  refine List.map_fst_zip ?_
  rw [length_bufferBytes h, bytesFrom_eq_map, List.length_map, List.length_range]

theorem byteAt_fillBuffer (hwf : Memory.wf s.mem = true) (h : str.length < n) (hn : n ≤ 2 ^ 32) (hk : k < n) :
    some ((fillBuffer str n s).byteAt (s.readReg 4#5 + BitVec.ofNat 32 k)) = (bufferBytes str n s.draws)[k]? := by
  have hkb : k < (bufferBytes str n s.draws).length := by rwa [length_bufferBytes h]
  rw [List.getElem?_eq_getElem hkb]
  refine congrArg some (byteAt_writeBytes_mem s _ _ _ hwf ?_ ?_)
  · rw [fillBuffer_addresses h]
    exact bytesFrom_nodup _ hn
  · refine List.mem_iff_getElem.2 ⟨k, ?_, ?_⟩
    · simpa [length_bufferBytes h, bytesFrom_eq_map] using hk
    · simp [bytesFrom_eq_map]

theorem frame_fillBuffer (hwf : Memory.wf s.mem = true) (h : str.length < n) :
    frame s (fillBuffer str n s) [] [] (bytesFrom (s.readReg 4#5) n) := by
  have hwrite := frame_writeBytes (cells := (bytesFrom (s.readReg 4#5) n).zip (bufferBytes str n s.draws)) hwf
  rw [fillBuffer_addresses h] at hwrite
  exact hwrite

/-- The string and its null byte, at the start of the buffer. -/
theorem fillBuffer_string (hwf : Memory.wf s.mem = true) (h : str.length < n) (hn : n ≤ 2 ^ 32) :
    (∀ k < str.length, some ((fillBuffer str n s).byteAt (s.readReg 4#5 + BitVec.ofNat 32 k)) = str[k]?) ∧
      (fillBuffer str n s).byteAt (s.readReg 4#5 + BitVec.ofNat 32 str.length) = 0#8 := by
  constructor
  · intro k hk
    rw [byteAt_fillBuffer hwf h hn (by omega), bufferBytes, List.getElem?_append_left hk]
  · refine Option.some_injective _ ?_
    rw [byteAt_fillBuffer hwf h hn h, bufferBytes, List.getElem?_append_right le_rfl]
    simp

theorem inputLine_eq_offeredLine (s : State) : s.inputLine = offeredLine s := by
  unfold State.inputLine offeredLine typedLine
  cases s.inLines <;> simp [bne, Bool.beq_eq_decide_eq]

theorem length_keptString (line : List Byte) (hn : 2 ≤ n) : (keptString line n).length < n := by
  unfold keptString
  split <;> simp <;> omega

theorem readString_of_data (hn : 1 < (s.readReg 5#5).toInt)
    (hdata : bufferStop s (s.readReg 5#5).toInt.toNat (s.readReg 4#5) = none) :
    readString s =
      done (fillBuffer (keptString (offeredLine s) (s.readReg 5#5).toInt.toNat) (s.readReg 5#5).toInt.toNat
        s.afterLine) := by
  unfold readString
  dsimp only
  rw [if_neg (by omega), hdata, unlessStop_none, if_neg (by omega), inputLine_eq_offeredLine]
  rfl

theorem readString_of_stop {c : Stop} (hn : 1 ≤ (s.readReg 5#5).toInt)
    (hstop : bufferStop s (s.readReg 5#5).toInt.toNat (s.readReg 4#5) = some c) : readString s = stopWith c s := by
  unfold readString
  dsimp only
  rw [if_neg (by omega), hstop]
  rfl

/-- Settles O51: the check of the buffer decides; past it the bytes written are the string, a null byte and drawn
bytes, one for each address of the buffer. -/
theorem readStringService : Obligations.ReadStringService := by
  intro s hcode n a
  have hexec : exec .syscall s = readString s := exec_syscall hcode
  refine ⟨fun hn => ?below, fun hn hwf hdata => ?fills, fun k hk hdata => ?stops⟩
  case below =>
    have hnone : readString s = done s := by
      unfold readString
      exact if_pos hn
    exact ⟨_, reads_of_exec (hexec.trans hnone) (answeredFrom_refl s) (frame_refl s) rfl, rfl, rfl⟩
  case fills =>
    have hstop := bufferStop_none.2 (writable_bytesFrom.2 hdata)
    have ha : a 0 = s.readReg 4#5 := BitVec.add_zero _
    refine ⟨fun hone => ?_, fun hne => ?_⟩
    · have hbuffer : readString s = done (fillBuffer [] 1 s) := by
        unfold readString
        dsimp only
        rw [if_neg (by omega), hstop, unlessStop_none, if_pos hone]
      obtain ⟨-, hnull⟩ := fillBuffer_string (str := []) hwf Nat.one_pos (by norm_num)
      rw [ha]
      refine ⟨_, reads_of_exec (hexec.trans hbuffer) (answeredFrom_refl s) (frame_fillBuffer hwf Nat.one_pos) ?_, ?_, ?_⟩
      · simp [fillBuffer]
      · simpa using hnull
      · simp [fillBuffer]
    · intro str
      have hlt : n < 2 ^ 31 := BitVec.toInt_lt
      have hlen : str.length < n.toNat := length_keptString _ (by omega)
      have hwf' : Memory.wf s.afterLine.mem = true := by simpa using hwf
      have hreg : s.afterLine.readReg 4#5 = a 0 := by simp [ha]
      have hframe := frame_fillBuffer (s := s.afterLine) hwf' hlen
      obtain ⟨hbytes, hnull⟩ := fillBuffer_string (s := s.afterLine) hwf' hlen (by omega)
      rw [hreg] at hframe
      rw [State.afterLine_readReg] at hbytes hnull
      refine ⟨_, reads_of_exec (hexec.trans (readString_of_data (by omega) hstop)) (answeredFrom_afterLine s) hframe ?_,
        hlen, hbytes, hnull, ?_⟩
      · simp [fillBuffer]
      · simp [fillBuffer, afterLine_inLines]
  case stops =>
    obtain ⟨hbus, htext⟩ := bufferStop_at (n := n.toNat) (by omega) hdata
    exact ⟨fun hclass => hexec.trans (readString_of_stop (by omega) (hbus hclass)),
      fun hclass => hexec.trans (readString_of_stop (by omega) (htext hclass))⟩

end Sys2Proof.Machine
end

section
/-! The pseudoinstructions of one result and the branches among them, in numbers (40_arithmetic_logical.md,
41_shift_rotate.md, 42_constant.md, 44_branch_jump.md, 47_data_movement.md). -/

namespace Sys2Proof.Machine

open Sys2Proof.Claims

variable {s t u : State} {len : Nat} {p : Pseudo} {rd : Reg} {v a b : Word} {dests : List Reg}
  {cells : List (CopNum × Reg)} {addrs : List Word}

/-! ## Forms that have a meaning -/

/-- The address of a statement is the integer sum modulo `2^32` (45_load.md R255). -/
theorem addressOf_eq_place (s : State) (address : Address) : addressOf s address = place s address := by
  cases address with
  | absolute value => rfl
  | indexed offset base =>
    simp [addressOf, place, patternOf, BitVec.ofInt_add]

/-- The constants of a well-formed pseudoinstruction are in range. -/
theorem constants_of_wellFormed (h : p.wellFormed = true) : ∀ c ∈ pseudoConstants p, constantInRange c = true := by
  have hsrc2 (x : Src2) (hx : x.wellFormed = true) : ∀ c ∈ constantOf x, constantInRange c = true := by
    cases x
    · simp [constantOf]
    · simpa [constantOf, Src2.wellFormed] using hx
  have haddress (x : Address) (hx : x.wellFormed = true) : ∀ c ∈ (match x with
      | .absolute value => [value]
      | .indexed offset _ => [offset]), constantInRange c = true := by
    cases x <;> simpa [Address.wellFormed] using hx
  cases p
  case unary | b | beqz | bnez | mfc1D => simp [pseudoConstants]
  case mulDiv c | rol c | ror c | set c | branch c _ => exact hsrc2 c h
  case li | generalAlu | generalHiLo => simpa [pseudoConstants, Pseudo.wellFormed] using h
  all_goals exact haddress _ h

/-- A well-formed pseudoinstruction that names neither register 31 as a pair nor an odd floating-point register has a
meaning (R406). -/
theorem formStop_of_wellFormed (h : p.wellFormed = true) (hpair : ∀ q ∈ pseudoPair p, q ≠ 31#5)
    (heven : ∀ f ∈ pseudoFloatRegisters p, f.toNat % 2 = 0) : formStop p = none := by
  have hnil : pseudoRefusals p = [] := by
    simp only [pseudoRefusals, List.append_eq_nil_iff, List.map_eq_nil_iff, List.filter_eq_nil_iff, decide_eq_true_eq]
    refine ⟨⟨hpair, fun f hf => ?_⟩, fun c hc => ?_⟩
    · have := heven f hf
      omega
    · have hrange := constants_of_wellFormed h c hc
      simp only [constantInRange, Bool.and_eq_true, decide_eq_true_eq] at hrange
      omega
  rw [formStop_eq, hnil]
  rfl

theorem execPseudo_of_form (h : formStop p = none) : execPseudo len p s = pseudoEffect len p s := by
  rw [execPseudo, h, unlessStop_none]

/-! ## How a pseudoinstruction that completes ends (R38) -/

/-- The end of a pseudoinstruction adds `x[1]` to its frame. -/
theorem movesOn_of_execPseudo (h : execPseudo len p s = endPseudo len dests u) (hpc : u.pc = s.pc)
    (hf : frame s u dests cells addrs) :
    movesOn len p s ((scratchAt dests u).jump (u.nextStatement len)) dests cells addrs := by
  refine ⟨h, congrArg (· + BitVec.ofNat 32 (4 * len)) hpc, frame_mono (frame_trans hf (frame_scratchAt u dests)) ?_ ?_ ?_⟩
  · simp
  · simp
  · simp

/-- A pseudoinstruction that works through the multiply and divide unit leaves its result and draws the unit. -/
theorem pseudoSets_throughHiLo (h : execPseudo len p s = endThroughHiLo len [rd] (s.writeReg rd v)) :
    pseudoSets len p s rd v true := by
  have hread : (scratchAt [rd] (drawHiLo (s.writeReg rd v))).readReg rd = if rd = 0#5 then 0#32 else v :=
    (readReg_scratchAt (List.mem_singleton_self rd)).trans (readReg_writeReg_dest s rd v)
  obtain ⟨hregs, hcop, hflags, -, hmem, hconsole, hrun⟩ := frame_writeReg s rd v
  obtain ⟨hregs', hcop', hflags', -, hmem', hconsole', hrun'⟩ := frame_scratchAt (drawHiLo (s.writeReg rd v)) [rd]
  refine ⟨_, h, hread, rfl, fun q hq => ?_, fun z j _ => (hcop' z j (by simp)).trans (hcop z j (by simp)),
    fun z => (hflags' z).trans (hflags z), fun x _ => (hmem' x (by simp)).trans (hmem x (by simp)), hconsole', hrun', by simp⟩
  simp only [List.mem_cons, List.not_mem_nil, or_false, not_or] at hq
  obtain ⟨hrd, h1⟩ := hq
  exact (hregs' q (by simpa using h1)).trans (hregs q (by simpa using hrd))

/-! ## One result, or `Overflow` -/

/-- The outcome of a pseudoinstruction of one result: written, or `Overflow` where there is none. -/
def resultOr (rd : Reg) (result : Option Word) (fin : State → Result) (s : State) : Result :=
  match result with
  | some v => fin (s.writeReg rd v)
  | none => raise .overflow s

theorem resultOr_some (fin : State → Result) (s : State) : resultOr rd (some v) fin s = fin (s.writeReg rd v) := rfl

theorem resultOr_ite (c : Prop) [Decidable c] (fin : State → Result) (s : State) (hc : c) :
    resultOr rd (if c then some v else none) fin s = fin (s.writeReg rd v) := by
  rw [if_pos hc, resultOr_some]

/-- The shared operation, as a result or none. -/
theorem setRegOrOverflow_eq (x : Int) (fin : State → Result) (s : State) :
    setRegOrOverflow rd x fin s =
      resultOr rd (if -2147483648 ≤ x ∧ x ≤ 2147483647 then some (BitVec.ofInt 32 x) else none) fin s := by
  by_cases h : -2147483648 ≤ x ∧ x ≤ 2147483647
  · rw [if_pos h, resultOr_some, setRegOrOverflow_of_range fin (by omega) (by omega)]
  · rw [if_neg h]
    exact setRegOrOverflow_fault rd x fin ((overflowsSigned_iff x).2 (by omega))

/-- The general form of an operation has the result R109 gives it. -/
theorem generalOperation_eq (op : AluOp) (a b : Word) (fin : State → Result) (s : State) :
    generalOperation op rd a b fin s = resultOr rd (aluResult op a b) fin s := by
  cases op
  case add | sub => exact setRegOrOverflow_eq _ fin s
  case addu => rw [aluResult, ← add_eq_ofNat]; rfl
  case subu => rw [aluResult, ← sub_eq_ofInt]; rfl
  case and => rw [aluResult, ← and_eq_ofNat]; rfl
  case or => rw [aluResult, ← or_eq_ofNat]; rfl
  case xor => rw [aluResult, ← xor_eq_ofNat]; rfl
  case nor => rw [aluResult, ← nor_eq_ofNat]; rfl
  case sllv => rw [aluResult, ← distanceOf_eq, ← shiftLeft_eq_ofNat]; rfl
  case srlv => rw [aluResult, ← distanceOf_eq, ← shiftRight_eq_ofNat]; rfl
  case srav => rw [aluResult, ← distanceOf_eq, ← shiftRightArithmetic_eq_ofInt]; rfl

/-- The one word whose negative is out of range. -/
theorem eq_minWord_iff (a : Word) : a = 0x80000000#32 ↔ a.toInt = -2147483648 :=
  BitVec.toInt_inj (y := 0x80000000#32).symm

theorem pseudoAbs_eq (a : Word) (fin : State → Result) (s : State) :
    pseudoUnary .abs rd a fin s =
      resultOr rd (if a = 0x80000000#32 then none else some (BitVec.ofNat 32 a.toInt.natAbs)) fin s := by
  obtain ⟨hlow, hhigh⟩ := toInt_range a
  have habs : (if a.toInt < 0 then -a.toInt else a.toInt) = a.toInt.natAbs := by split <;> omega
  rw [pseudoUnary, habs, setRegOrOverflow_eq, BitVec.ofInt_natCast]
  by_cases hmin : a.toInt = -2147483648
  · rw [if_neg (by omega), if_pos ((eq_minWord_iff a).2 hmin)]
  · rw [if_pos (by omega), if_neg (mt (eq_minWord_iff a).1 hmin)]

theorem pseudoNeg_eq (a : Word) (fin : State → Result) (s : State) :
    pseudoUnary .neg rd a fin s =
      resultOr rd (if a = 0x80000000#32 then none else some (BitVec.ofInt 32 (-a.toInt))) fin s := by
  obtain ⟨hlow, hhigh⟩ := toInt_range a
  rw [pseudoUnary, setRegOrOverflow_eq]
  by_cases hmin : a.toInt = -2147483648
  · rw [if_neg (by omega), if_pos ((eq_minWord_iff a).2 hmin)]
  · rw [if_pos (by omega), if_neg (mt (eq_minWord_iff a).1 hmin)]

/-- Two parts of a rotated word do not overlap: their disjunction is their sum, modulo `2^32`. -/
theorem rotate_parts {x i : Nat} (hx : x < 2 ^ 32) (hi : i ≤ 32) :
    (x <<< i) % 2 ^ 32 ||| x >>> (32 - i) = (x * 2 ^ i + x / 2 ^ (32 - i)) % 2 ^ 32 := by
  have hsplit : (2 : Nat) ^ 32 = 2 ^ (32 - i) * 2 ^ i := by rw [← pow_add, Nat.sub_add_cancel hi]
  have hlow : x / 2 ^ (32 - i) < 2 ^ i := by
    rw [Nat.div_lt_iff_lt_mul (by positivity), mul_comm, ← hsplit]
    exact hx
  have hhigh : (x <<< i) % 2 ^ 32 = (x % 2 ^ (32 - i)) <<< i := by
    rw [Nat.shiftLeft_eq, Nat.shiftLeft_eq, hsplit, Nat.mul_mod_mul_right]
  rw [hhigh, Nat.shiftRight_eq_div_pow, ← Nat.shiftLeft_add_eq_or_of_lt hlow, ← hhigh, Nat.shiftLeft_eq, Nat.add_mod,
    Nat.mod_eq_of_lt (hlow.trans_le (Nat.pow_le_pow_right two_pos hi))]
  refine (Nat.mod_eq_of_lt ?_).symm
  have hmod : x % 2 ^ (32 - i) + 1 ≤ 2 ^ (32 - i) := Nat.mod_lt _ (by positivity)
  calc (x * 2 ^ i) % 2 ^ 32 + x / 2 ^ (32 - i)
      = (x % 2 ^ (32 - i)) * 2 ^ i + x / 2 ^ (32 - i) := by rw [hsplit, Nat.mul_mod_mul_right]
    _ < (x % 2 ^ (32 - i)) * 2 ^ i + 2 ^ i := Nat.add_lt_add_left hlow _
    _ = (x % 2 ^ (32 - i) + 1) * 2 ^ i := by ring
    _ ≤ 2 ^ 32 := hsplit ▸ Nat.mul_le_mul_right _ hmod

theorem rotateLeft_eq_ofNat (x : Word) {n : Nat} (hn : n < 32) :
    x.rotateLeft n = BitVec.ofNat 32 (x.toNat * 2 ^ n + x.toNat / 2 ^ (32 - n)) := by
  apply BitVec.eq_of_toNat_eq
  rw [BitVec.toNat_rotateLeft, Nat.mod_eq_of_lt hn, BitVec.toNat_ofNat, rotate_parts x.isLt hn.le]

theorem rotateRight_eq_ofNat (x : Word) {n : Nat} (hn : n < 32) :
    x.rotateRight n = BitVec.ofNat 32 (x.toNat / 2 ^ n + x.toNat * 2 ^ (32 - n)) := by
  have hparts := rotate_parts x.isLt (Nat.sub_le 32 n)
  rw [Nat.sub_sub_self hn.le] at hparts
  apply BitVec.eq_of_toNat_eq
  rw [BitVec.toNat_rotateRight, Nat.mod_eq_of_lt hn, BitVec.toNat_ofNat, Nat.or_comm, hparts, Nat.add_comm]

/-- A pseudoinstruction of one result names no pair and no floating-point register. -/
theorem formStop_of_result {r : Option Word} (hwf : p.wellFormed = true) (h : pseudoResult p s = some (rd, r)) :
    formStop p = none := by
  have hnames : pseudoPair p = [] ∧ pseudoFloatRegisters p = [] := by
    cases p
    case ld | sd | mfc1D | lD | lS | sD | sS => cases h
    all_goals exact ⟨rfl, rfl⟩
  obtain ⟨hpair, hfloat⟩ := hnames
  exact formStop_of_wellFormed hwf (by simp [hpair]) (by simp [hfloat])

theorem pseudoEffect_of_result {r : Option Word} (h : pseudoResult p s = some (rd, r)) :
    pseudoEffect len p s = resultOr rd r (endPseudo len [rd]) s := by
  cases p
  case unary op q x =>
    cases op <;> cases h
    case abs => exact pseudoAbs_eq _ _ s
    case neg => exact pseudoNeg_eq _ _ s
    case negu =>
      rw [← neg_eq_ofInt, ← BitVec.zero_sub]
      rfl
    case not =>
      rw [← not_eq_ofNat]
      rfl
    case move => rfl
  case rol q x c =>
    cases h
    rw [← rotateLeft_eq_ofNat _ (Nat.mod_lt _ (by norm_num)), ← valueOf_eq_operand]
    rfl
  case ror q x c =>
    cases h
    rw [← rotateRight_eq_ofNat _ (Nat.mod_lt _ (by norm_num)), ← valueOf_eq_operand]
    rfl
  case li => cases h; rfl
  case la q address =>
    cases h
    rw [← addressOf_eq_place]
    rfl
  case generalAlu => cases h; exact generalOperation_eq _ _ _ _ s
  all_goals cases h

theorem ne_add_one (q : Reg) : q + 1#5 ≠ q := by bv_omega

theorem pair_ne_zero {q : Reg} (h : q ≠ 31#5) : q + 1#5 ≠ 0#5 := by bv_omega

/-- A pair of registers written, the first the lower. -/
theorem readReg_writePair (s : State) {q : Reg} (h : q ≠ 31#5) (v w : Word) :
    ((s.writeReg q v).writeReg (q + 1#5) w).readReg q = (if q = 0#5 then 0#32 else v) ∧
      ((s.writeReg q v).writeReg (q + 1#5) w).readReg (q + 1#5) = w := by
  refine ⟨?_, readReg_writeReg_same _ (pair_ne_zero h) w⟩
  rw [readReg_writeReg_other _ (ne_add_one q).symm, readReg_writeReg_dest]

theorem frame_writePair (s : State) (q : Reg) (v w : Word) :
    frame s ((s.writeReg q v).writeReg (q + 1#5) w) [q, q + 1#5] [] [] :=
  frame_trans (frame_writeReg s q v) (frame_writeReg _ (q + 1#5) w)

/-- Settles O54: a pseudoinstruction of one result writes it, or raises; `mfc1.d` writes two registers one after the
other. -/
theorem pseudoResults : Obligations.PseudoResults := by
  refine ⟨fun len p s rd r hwf h => ?one, fun len rd f s hrd hf => ?pair⟩
  case one =>
    have hexec : execPseudo len p s = resultOr rd r (endPseudo len [rd]) s :=
      (execPseudo_of_form (formStop_of_result hwf h)).trans (pseudoEffect_of_result h)
    cases r with
    | some v => exact pseudoSets_of_execPseudo hexec
    | none => exact hexec
  case pair =>
    have hform : formStop (.mfc1D rd f) = none :=
      formStop_of_wellFormed rfl (by simpa [pseudoPair] using hrd) (by simpa [pseudoFloatRegisters] using hf)
    obtain ⟨hnext, hpc, hframe⟩ := movesOn_of_execPseudo (len := len) (execPseudo_of_form hform) (by simp)
      (frame_writePair s rd (s.readSingle f) (s.readSingle (f + 1#5)))
    obtain ⟨hlow, hhigh⟩ := readReg_writePair s hrd (s.readSingle f) (s.readSingle (f + 1#5))
    refine ⟨_, hnext, ?_, ?_, hpc, frame_mono hframe (by simp) (List.Subset.refl _) (List.Subset.refl _)⟩
    · rw [State.jump_readReg, readReg_scratchAt (by simp), hlow]
    · rw [State.jump_readReg, readReg_scratchAt (by simp), hhigh]

/-! ## The branches (R218, R222 to R238, R244) -/

theorem formStop_of_condition {c : Prop} {label : Word} (hwf : p.wellFormed = true)
    (h : pseudoCondition p s = some (c, label)) : formStop p = none := by
  have hnames : pseudoPair p = [] ∧ pseudoFloatRegisters p = [] := by
    cases p
    case ld | sd | mfc1D | lD | lS | sD | sS => cases h
    all_goals exact ⟨rfl, rfl⟩
  obtain ⟨hpair, hfloat⟩ := hnames
  exact formStop_of_wellFormed hwf (by simp [hpair]) (by simp [hfloat])

theorem pseudoEffect_of_condition {c : Prop} {label : Word} (h : pseudoCondition p s = some (c, label)) :
    ∃ b : Bool, (b = true ↔ c) ∧ pseudoEffect len p s = endBranch len b label s := by
  cases p
  case b => cases h; exact ⟨true, by simp, rfl⟩
  case beqz | bnez => cases h; exact ⟨_, relationHolds_iff _ _ _, rfl⟩
  case branch rel q src2 label => cases h; exact ⟨_, valueOf_eq_operand s src2 ▸ relationHolds_iff _ _ _, rfl⟩
  all_goals cases h

/-- Settles O56: a branch tests its condition and draws `x[1]`, whichever way it goes. -/
theorem pseudoBranches : Obligations.PseudoBranches := by
  intro len p s c label hwf h
  obtain ⟨b, hb, heffect⟩ := pseudoEffect_of_condition (len := len) h
  refine ⟨_, (execPseudo_of_form (formStop_of_condition hwf h)).trans heffect, fun hc => ?_, fun hc => ?_,
    frame_scratchAt s []⟩
  · simp [hb.2 hc]
  · simp [mt hb.1 hc, State.nextStatement]

/-! ## Multiply, divide, remainder (R129 to R131, R137, R138, R149, R150) -/

theorem execPseudo_mulDiv (len : Nat) (op : MulDivOp) (rd r : Reg) {c : Src2} (hc : c.wellFormed = true) (s : State) :
    execPseudo len (.mulDiv op rd r c) s =
      pseudoMulDiv op rd (s.readReg r) (operand s c) (endThroughHiLo len [rd]) s := by
  have hform : formStop (.mulDiv op rd r c) = none := (src2Stop_none c).2 hc
  rw [execPseudo_of_form hform, pseudoEffect, valueOf_eq_operand]

/-- Settles O55: the tests of a division come one after the other; past them the result is written and the unit drawn. -/
theorem pseudoMultiplyDivide : Obligations.PseudoMultiplyDivide := by
  intro len rd r c s hc a b overflow
  have hexec (op : MulDivOp) : execPseudo len (.mulDiv op rd r c) s = pseudoMulDiv op rd a b (endThroughHiLo len [rd]) s :=
    execPseudo_mulDiv len op rd r hc s
  have hover (x : Nat) : overflowsUnsigned x = true ↔ 2 ^ 32 ≤ x := by
    simp [overflowsUnsigned]
    omega
  refine ⟨?mul, fun hlow hhigh => ?mulo, fun hout => ?muloOverflow, fun hfit => ?mulou, fun hout => ?mulouOverflow,
    fun op hop hzero => ?zero, fun op hop ha hb => ?corner, fun hne => ⟨?divu, ?remu⟩, fun hne hcorner => ?signed⟩
  case mul => exact pseudoSets_throughHiLo (by rw [← mul_eq_ofNat]; exact hexec .mul)
  case mulo => exact pseudoSets_throughHiLo ((hexec .mulo).trans (setRegOrOverflow_of_range _ hlow hhigh))
  case muloOverflow =>
    exact (hexec .mulo).trans (setRegOrOverflow_fault rd _ _ ((overflowsSigned_iff _).2 hout))
  case mulou =>
    exact pseudoSets_throughHiLo ((hexec .mulou).trans (if_neg (mt (hover _).1 (Nat.not_le.2 hfit))))
  case mulouOverflow => exact (hexec .mulou).trans (if_pos ((hover _).2 hout))
  case zero =>
    rw [hexec]
    obtain rfl | rfl | rfl | rfl := hop <;> exact if_pos hzero
  case corner =>
    have hne : b ≠ 0#32 := fun h => by simp [h] at hb
    rw [hexec]
    obtain rfl | rfl := hop <;> exact (if_neg hne).trans (if_pos ((quotientOverflows_iff a b).2 ⟨ha, hb⟩))
  case divu => exact pseudoSets_throughHiLo ((hexec .divu).trans (if_neg hne))
  case remu => exact pseudoSets_throughHiLo ((hexec .remu).trans (if_neg hne))
  case signed =>
    have hfit : ¬ quotientOverflows a b = true := mt (quotientOverflows_iff a b).1 hcorner
    exact ⟨_, _, dividesTo_signedDivide s hne hcorner,
      pseudoSets_throughHiLo ((hexec .div).trans ((if_neg hne).trans (if_neg hfit))),
      pseudoSets_throughHiLo ((hexec .rem).trans ((if_neg hne).trans (if_neg hfit)))⟩

end Sys2Proof.Machine
end

section
/-! The loads and stores among the pseudoinstructions (45_load.md, 46_store.md): each is one check of the bytes it touches
and one write. -/

namespace Sys2Proof.Machine

open Sys2Proof.Claims

variable {s t u : State} {len : Nat} {p : Pseudo} {r : Result} {c d : Option Stop} {a v : Word} {addrs : List Word}
  {kind : StoreKind}

/-- A well-formed pseudoinstruction that names no pair and no floating-point register has a meaning. -/
theorem execPseudo_of_noNames (hwf : p.wellFormed = true) (hpair : pseudoPair p = [])
    (hfloat : pseudoFloatRegisters p = []) : execPseudo len p s = pseudoEffect len p s :=
  execPseudo_of_form (formStop_of_wellFormed hwf (by simp [hpair]) (by simp [hfloat]))

theorem execPseudo_of_pair {q : Reg} (hwf : p.wellFormed = true) (hpair : pseudoPair p = [q])
    (hfloat : pseudoFloatRegisters p = []) (hq : q ≠ 31#5) : execPseudo len p s = pseudoEffect len p s :=
  execPseudo_of_form (formStop_of_wellFormed hwf (by simpa [hpair] using hq) (by simp [hfloat]))

theorem execPseudo_of_float {f : Reg} (hwf : p.wellFormed = true) (hpair : pseudoPair p = [])
    (hfloat : pseudoFloatRegisters p = [f]) (hf : f.toNat % 2 = 0) : execPseudo len p s = pseudoEffect len p s :=
  execPseudo_of_form (formStop_of_wellFormed hwf (by simp [hpair]) (by simpa [hfloat] using hf))

/-! ## The checks of one or two accesses -/

theorem bytesFrom_append (a : Word) (m n : Nat) :
    bytesFrom a (m + n) = bytesFrom a m ++ bytesFrom (a + BitVec.ofNat 32 m) n := by
  induction m generalizing a with
  | zero => simp
  | succ m ih => rw [Nat.succ_add, bytesFrom_succ, bytesFrom_succ, ih, add_one_add_ofNat, List.cons_append]

/-- A check that finds the stops of an access makes the pseudoinstruction stop for them. -/
theorem accessStops_of_check (h : execPseudo len p s = unlessStop c s r)
    (hbus : touches s .unmapped addrs → c = some (.raises (.busError a)))
    (htext : pseudoStores p = true → allocated s addrs → touches s .text addrs → c = some (.refuses (.storeToText a))) :
    accessStops len p s a addrs := by
  refine ⟨fun hunmapped => ?_, fun hstores hmap ht => ?_⟩
  · rw [h, hbus hunmapped]
    rfl
  · rw [h, htext hstores hmap ht]
    rfl

theorem accessStops_of_readStop {align : Nat} (hp : pseudoStores p = false)
    (h : execPseudo len p s = unlessStop (readStop s align a addrs) s r) (halign : a.toNat % align = 0) :
    accessStops len p s a addrs :=
  accessStops_of_check h (readStop_of_touches halign) fun hstores => by cases hp.symm.trans hstores

theorem accessStops_of_writeStop {align : Nat} (h : execPseudo len p s = unlessStop (writeStop s align a addrs) s r)
    (halign : a.toNat % align = 0) : accessStops len p s a addrs :=
  accessStops_of_check h (writeStop_of_touches halign) fun _ => writeStop_of_text halign

theorem firstStop_of_some {stop : Stop} (h : c = some stop) : firstStop c d = some stop := by rw [h]; rfl

theorem firstStop_of_none (h : c = none) : firstStop c d = d := by rw [h]; rfl

theorem misalignedStops_of_check {align : Nat} (h : execPseudo len p s = unlessStop c s r)
    (hmis : a.toNat % align ≠ 0 → c = some (.raises (.addressError a))) : misalignedStops len p s align a := by
  intro hne
  rw [h, hmis hne]
  rfl

/-- The stops of an access depend on which bytes it touches, not on their order. -/
theorem accessStops_congr {addrs' : List Word} (h : ∀ x, x ∈ addrs ↔ x ∈ addrs') (hs : accessStops len p s a addrs) :
    accessStops len p s a addrs' := by
  obtain ⟨hbus, htext⟩ := hs
  exact ⟨fun hu => hbus ((touches_congr h).2 hu), fun hp hmap ht => htext hp ((allocated_congr h).2 hmap)
    ((touches_congr h).2 ht)⟩

/-! ## The loads of one value -/

theorem execPseudo_load {kind : LoadKind} {rd : Reg} {align : Nat} (hwf : p.wellFormed = true)
    (h : pseudoLoad p s = some (kind, rd, align, a)) :
    pseudoStores p = false ∧ execPseudo len p s =
      unlessStop (readStop s align a (bytesFrom a (loadBytes kind))) s
        (endPseudo len [rd] (s.writeReg rd (loaded s kind a))) := by
  cases p
  case ulh | ulhu | ulw =>
    cases h
    rw [execPseudo_of_noNames hwf rfl rfl, ← addressOf_eq_place, ← value_eq_loaded]
    exact ⟨rfl, rfl⟩
  case generalLoad =>
    cases h
    rw [execPseudo_of_noNames hwf rfl rfl, ← addressOf_eq_place, ← value_eq_loaded, ← size_eq_loadBytes]
    exact ⟨rfl, rfl⟩
  all_goals cases h

theorem pseudoLoadsFollow_holds : pseudoLoadsFollow := by
  intro len p s kind rd align a hwf h
  obtain ⟨hp, hexec⟩ := execPseudo_load (len := len) hwf h
  refine ⟨fun halign hmap => pseudoSets_of_execPseudo ?_, misalignedStops_of_check hexec (readStop_misaligned _ _ _),
    accessStops_of_readStop hp hexec⟩
  rw [hexec, readStop_of_allocated halign hmap, unlessStop_none]

theorem execPseudo_copLoad {z : CopNum} {j : Reg} (hwf : p.wellFormed = true)
    (h : pseudoCopLoad p s = some (z, j, a)) :
    pseudoStores p = false ∧ execPseudo len p s =
      unlessStop (readStop s 4 a (bytesFrom a 4)) s
        (endPseudo len [] (s.writeCop z j (BitVec.ofNat 32 (number s a 4)))) := by
  cases p
  case lS f address =>
    dsimp only [pseudoCopLoad] at h
    split_ifs at h with heven
    cases h
    rw [execPseudo_of_float hwf rfl rfl heven, ← addressOf_eq_place, ← State.wordAt_eq_number]
    exact ⟨rfl, rfl⟩
  case generalLoadCop =>
    cases h
    rw [execPseudo_of_noNames hwf rfl rfl, ← addressOf_eq_place, ← State.wordAt_eq_number]
    exact ⟨rfl, rfl⟩
  all_goals cases h

theorem pseudoCopLoadsFollow_holds : pseudoCopLoadsFollow := by
  intro len p s z j a hwf h
  obtain ⟨hp, hexec⟩ := execPseudo_copLoad (len := len) hwf h
  refine ⟨fun halign hmap => ?_, misalignedStops_of_check hexec (readStop_misaligned _ _ _),
    accessStops_of_readStop hp hexec⟩
  rw [readStop_of_allocated halign hmap, unlessStop_none] at hexec
  refine ⟨_, movesOn_of_execPseudo hexec (by simp) (frame_writeCop ..), ?_⟩
  simp [scratchAt, readCop_writeCop]

theorem pseudoPartialLoadsFollow_holds : pseudoPartialLoadsFollow := by
  intro len s side rd address hwf p a e
  have hexec : execPseudo len p s = loadPartial side a rd (endPseudo len [rd]) s := by
    rw [execPseudo_of_noNames (p := p) hwf rfl rfl]
    exact congrArg (fun x => loadPartial side x rd (endPseudo len [rd]) s) (addressOf_eq_place s address)
  exact ⟨fun hmap => ⟨_, pseudoSets_of_execPseudo (hexec.trans (loadPartial_of_allocated _ hmap)),
      fun j hj => byteNumber_loadPartial s side a _ hj⟩,
    accessStops_congr (fun _ => mem_partialPairs_addresses)
      (accessStops_of_readStop rfl hexec (Nat.mod_one _))⟩

/-! ## The stores of one value -/

theorem storeUnaligned_of_writable (fin : State → Result) (h : writable s (bytesFrom a (StoreKind.size kind))) :
    storeUnaligned kind a v fin s = fin (s.writeBytes (StoreKind.cells kind s.cfg.endian a v)) := by
  have hnone := (unalignedWriteStop_none (s := s) (StoreKind.firstAccess kind a) a _).2 h
  simp only [storeUnaligned, storeKind_cells_addresses, hnone, unlessStop_none]

/-- A store of one value is one access, or unaligned. -/
theorem execPseudo_store {count align : Nat} (hwf : p.wellFormed = true)
    (h : pseudoStore p s = some (count, align, a, v)) :
    ∃ kind, count = StoreKind.size kind ∧
      (align = count ∧ execPseudo len p s = storeValue kind a v (endPseudo len []) s ∨
        align = 1 ∧ count ≠ 1 ∧ execPseudo len p s = storeUnaligned kind a v (endPseudo len []) s) := by
  cases p
  case ush | usw =>
    cases h
    rw [execPseudo_of_noNames hwf rfl rfl, ← addressOf_eq_place]
    exact ⟨_, rfl, .inr ⟨rfl, by decide, rfl⟩⟩
  case sS f address =>
    dsimp only [pseudoStore] at h
    split_ifs at h with heven
    cases h
    rw [execPseudo_of_float hwf rfl rfl heven, ← addressOf_eq_place]
    exact ⟨.word, rfl, .inl ⟨rfl, rfl⟩⟩
  case generalStore kind q address =>
    cases kind <;> cases h <;> rw [execPseudo_of_noNames hwf rfl rfl, ← addressOf_eq_place]
    exacts [⟨.byte, rfl, .inl ⟨rfl, rfl⟩⟩, ⟨.half, rfl, .inl ⟨rfl, rfl⟩⟩, ⟨.word, rfl, .inl ⟨rfl, rfl⟩⟩]
  case generalStoreCop =>
    cases h
    rw [execPseudo_of_noNames hwf rfl rfl, ← addressOf_eq_place]
    exact ⟨.word, rfl, .inl ⟨rfl, rfl⟩⟩
  all_goals cases h

/-- What a store of one value leaves. -/
theorem movesOn_of_writeCells (hwf : Memory.wf s.mem = true)
    (h : execPseudo len p s = endPseudo len [] (s.writeBytes (StoreKind.cells kind s.cfg.endian a v))) :
    ∃ t, movesOn len p s t [] [] (bytesFrom a (StoreKind.size kind)) ∧
      number t a (StoreKind.size kind) = v.toNat % 256 ^ StoreKind.size kind := by
  have hframe := frame_writeBytes (cells := StoreKind.cells kind s.cfg.endian a v) hwf
  rw [storeKind_cells_addresses] at hframe
  refine ⟨_, movesOn_of_execPseudo h (by simp) hframe, ?_⟩
  rw [← number_writeCells kind s a v hwf, number_jump]
  exact number_congr (by simp [scratchAt_cfg]) _ fun x _ => by simp [scratchAt]

theorem pseudoStoresFollow_holds : pseudoStoresFollow := by
  intro len p s count align a v hwf h
  obtain ⟨kind, rfl, ⟨rfl, hexec⟩ | ⟨rfl, hne, hexec⟩⟩ := execPseudo_store (len := len) hwf h
  · have hcheck := hexec
    rw [storeValue, storeCells, storeKind_cells_addresses] at hcheck
    exact ⟨fun hmem halign hdata => movesOn_of_writeCells hmem (hexec.trans (storeValue_of_writable _ halign hdata)),
      misalignedStops_of_check hcheck (writeStop_misaligned _ _ _), fun _ => accessStops_of_writeStop hcheck⟩
  · exact ⟨fun hmem _ hdata => movesOn_of_writeCells hmem (hexec.trans (storeUnaligned_of_writable _ hdata)),
      fun hmis => absurd (Nat.mod_one _) hmis, fun h1 => absurd h1.symm hne⟩

/-- The two accesses of an unaligned store stop it one after the other (60_exceptions.md R407, log 39). -/
theorem accessStops_of_unaligned {m n : Nat} (hkind : StoreKind.size kind = m + n)
    (hfirst : StoreKind.firstAccess kind a = m)
    (hexec : execPseudo len p s = storeUnaligned kind a v (endPseudo len []) s) :
    accessStops len p s a (bytesFrom a m) ∧
      (writable s (bytesFrom a m) → accessStops len p s a (bytesFrom (a + BitVec.ofNat 32 m) n)) := by
  have hlen : (bytesFrom a m).length = m := by rw [bytesFrom_eq_map, List.length_map, List.length_range]
  have hone := Nat.mod_one a.toNat
  simp only [storeUnaligned, storeKind_cells_addresses, hkind, bytesFrom_append, hfirst, unalignedWriteStop,
    List.take_left' hlen, List.drop_left' hlen] at hexec
  refine ⟨accessStops_of_check hexec (fun h => firstStop_of_some (writeStop_of_touches hone h))
    fun _ hmap h => firstStop_of_some (writeStop_of_text hone hmap h), fun hdata => ?_⟩
  rw [firstStop_of_none (writeStop_of_writable hone hdata)] at hexec
  exact accessStops_of_writeStop hexec hone

theorem unalignedStoresFollow_holds : unalignedStoresFollow := by
  intro len s q address hwf a inWord
  have hush : execPseudo len (.ush q address) s = storeUnaligned .half a (s.readReg q) (endPseudo len []) s := by
    rw [execPseudo_of_noNames (p := .ush q address) hwf rfl rfl]
    exact congrArg (fun x => storeUnaligned .half x (s.readReg q) (endPseudo len []) s) (addressOf_eq_place s address)
  have husw : execPseudo len (.usw q address) s = storeUnaligned .word a (s.readReg q) (endPseudo len []) s := by
    rw [execPseudo_of_noNames (p := .usw q address) hwf rfl rfl]
    exact congrArg (fun x => storeUnaligned .word x (s.readReg q) (endPseudo len []) s) (addressOf_eq_place s address)
  obtain ⟨hfirst, hsecond⟩ := accessStops_of_unaligned (m := 1) (n := 1) rfl rfl hush
  exact ⟨⟨hfirst, fun hclass => hsecond (by simpa [writable] using hclass)⟩,
    accessStops_of_unaligned (m := inWord) (n := 4 - inWord) (by simp only [StoreKind.size]; omega) rfl husw⟩

theorem pseudoPartialStoresFollow_holds : pseudoPartialStoresFollow := by
  intro len s side q address hwf p a e
  have hexec : execPseudo len p s = storePartial side a (s.readReg q) (endPseudo len []) s := by
    rw [execPseudo_of_noNames (p := p) hwf rfl rfl]
    exact congrArg (fun x => storePartial side x (s.readReg q) (endPseudo len []) s) (addressOf_eq_place s address)
  refine ⟨fun hmem hdata => ?_, ?_⟩
  · refine ⟨_, movesOn_of_execPseudo (hexec.trans (storePartial_of_writable _ hdata)) (by simp) (frame_storePartial hmem),
      fun j hj m hm => ?_⟩
    rw [← byteAt_storePartial s side a (s.readReg q) hmem hj hm]
    simp [scratchAt]
  · rw [storePartial, storeCells, partialCells_addresses] at hexec
    exact accessStops_congr (fun _ => mem_partialPairs_addresses) (accessStops_of_writeStop hexec (Nat.mod_one _))

/-- Settles O57: each load and store is one check and one write. -/
theorem pseudoLoadsAndStores : Obligations.PseudoLoadsAndStores :=
  ⟨pseudoLoadsFollow_holds, pseudoCopLoadsFollow_holds, pseudoPartialLoadsFollow_holds, pseudoStoresFollow_holds,
    unalignedStoresFollow_holds, pseudoPartialStoresFollow_holds⟩

end Sys2Proof.Machine
end

section
/-! The double-word loads and stores (45_load.md R259, 46_store.md R281, 48_floating_point.md R341, R350): two word
accesses, the one at the address checked first. -/

namespace Sys2Proof.Machine

open Sys2Proof.Claims

variable {s t u : State} {len : Nat} {p : Pseudo} {r : Result} {a w0 w1 : Word}

/-! ## Eight bytes as two words -/

theorem bytesFrom_eight (a : Word) : bytesFrom a 8 = bytesFrom a 4 ++ bytesFrom (a + 4#32) 4 := bytesFrom_append a 4 4

theorem add_four_aligned (h : a.toNat % 4 = 0) : (a + 4#32).toNat % 4 = 0 := by
  rw [BitVec.toNat_add]
  simp
  omega

theorem readPairStop_of_allocated (halign : a.toNat % 4 = 0) (h : allocated s (bytesFrom a 8)) :
    readPairStop s a = none := by
  rw [bytesFrom_eight, allocated, List.forall_mem_append] at h
  obtain ⟨hlow, hhigh⟩ := h
  rw [readPairStop, firstStop_of_none (readStop_of_allocated halign hlow)]
  exact readStop_of_allocated (add_four_aligned halign) hhigh

theorem writePairStop_of_writable (halign : a.toNat % 4 = 0) (h : writable s (bytesFrom a 8)) :
    writePairStop s a = none := by
  rw [bytesFrom_eight, writable, List.forall_mem_append] at h
  obtain ⟨hlow, hhigh⟩ := h
  rw [writePairStop, firstStop_of_none (writeStop_of_writable halign hlow)]
  exact writeStop_of_writable (add_four_aligned halign) hhigh

/-- What stops the two reads of a double-word, one after the other. -/
theorem readPair_stops (hp : pseudoStores p = false) (h : execPseudo len p s = unlessStop (readPairStop s a) s r) :
    misalignedStops len p s 4 a ∧
      (a.toNat % 4 = 0 → accessStops len p s a (bytesFrom a 4) ∧
        (allocated s (bytesFrom a 4) → accessStops len p s (a + 4#32) (bytesFrom (a + 4#32) 4))) := by
  refine ⟨misalignedStops_of_check h fun hmis => firstStop_of_some (readStop_misaligned _ _ _ hmis),
    fun halign => ⟨accessStops_of_check h (fun ht => firstStop_of_some (readStop_of_touches halign ht)) fun hs => ?_,
      fun hmap => ?_⟩⟩
  · cases hp.symm.trans hs
  · rw [readPairStop, firstStop_of_none (readStop_of_allocated halign hmap)] at h
    exact accessStops_of_readStop hp h (add_four_aligned halign)

/-- What stops the two writes of a double-word, one after the other. -/
theorem writePair_stops (h : execPseudo len p s = unlessStop (writePairStop s a) s r) :
    misalignedStops len p s 4 a ∧
      (a.toNat % 4 = 0 → accessStops len p s a (bytesFrom a 4) ∧
        (writable s (bytesFrom a 4) → accessStops len p s (a + 4#32) (bytesFrom (a + 4#32) 4))) := by
  refine ⟨misalignedStops_of_check h fun hmis => firstStop_of_some (writeStop_misaligned _ _ _ hmis),
    fun halign => ⟨accessStops_of_check h (fun ht => firstStop_of_some (writeStop_of_touches halign ht))
      fun _ hmap ht => firstStop_of_some (writeStop_of_text halign hmap ht), fun hdata => ?_⟩⟩
  rw [writePairStop, firstStop_of_none (writeStop_of_writable halign hdata)] at h
  exact accessStops_of_writeStop h (add_four_aligned halign)

/-- The number of a double-word is made of those of its two words, by byte order. -/
theorem number_eight (s : State) (a : Word) :
    number s a 8 =
      match s.cfg.endian with
      | .little => number s (a + 4#32) 4 * 2 ^ 32 + number s a 4
      | .big => number s a 4 * 2 ^ 32 + number s (a + 4#32) 4 := by
  rw [number_add s a 4 4]
  cases s.cfg.endian
  · dsimp only
    norm_num
    ring
  · rfl

/-! ## The meanings -/

theorem execPseudo_ld {q : Reg} {address : Address} (hwf : address.wellFormed = true) (hq : q ≠ 31#5) :
    execPseudo len (.ld q address) s =
      unlessStop (readPairStop s (place s address)) s
        (endPseudo len [q, q + 1#5] ((s.writeReg q (s.wordAt (place s address))).writeReg (q + 1#5)
          (s.wordAt (place s address + 4#32)))) := by
  rw [execPseudo_of_pair (p := .ld q address) hwf rfl rfl hq, ← addressOf_eq_place]
  rfl

theorem execPseudo_sd {q : Reg} {address : Address} (hwf : address.wellFormed = true) (hq : q ≠ 31#5) :
    execPseudo len (.sd q address) s =
      storePair (place s address) (s.readReg q) (s.readReg (q + 1#5)) (endPseudo len []) s := by
  rw [execPseudo_of_pair (p := .sd q address) hwf rfl rfl hq, ← addressOf_eq_place]
  rfl

/-- The double `l.d` reads, as the number of its eight bytes. -/
theorem execPseudo_lD {g : Reg} {address : Address} (hwf : address.wellFormed = true) (hg : g.toNat % 2 = 0) :
    ∃ v : DWord, v.toNat = number s (place s address) 8 ∧
      execPseudo len (.lD g address) s =
        unlessStop (readPairStop s (place s address)) s (endPseudo len [] (s.writeDouble g v)) := by
  rw [execPseudo_of_float (p := .lD g address) hwf rfl rfl hg, ← addressOf_eq_place]
  refine ⟨_, ?_, rfl⟩
  rw [number_eight]
  cases s.cfg.endian <;> simp only [BitVec.toNat_cast, toNat_append_add, State.wordAt_toNat]

/-- The two words `s.d` stores, as the double they make. -/
theorem execPseudo_sD {f : Reg} {address : Address} (hwf : address.wellFormed = true) (hf : f.toNat % 2 = 0) :
    ∃ w0 w1 : Word,
      (s.readDouble f).toNat = (match s.cfg.endian with
        | .little => w1.toNat * 2 ^ 32 + w0.toNat
        | .big => w0.toNat * 2 ^ 32 + w1.toNat) ∧
      execPseudo len (.sD f address) s = storePair (place s address) w0 w1 (endPseudo len []) s := by
  rw [execPseudo_of_float (p := .sD f address) hwf rfl rfl hf, ← addressOf_eq_place]
  simp only [pseudoEffect, pseudoSdFloat, State.readDouble, BitVec.toNat_cast, toNat_append_add]
  cases s.cfg.endian
  · exact ⟨_, _, rfl, rfl⟩
  · exact ⟨_, _, rfl, rfl⟩

/-! ## The effects -/

theorem doubleLoadsFollow_holds : doubleLoadsFollow := by
  intro len s address hwf a
  refine ⟨fun q hq halign hmap => ?ld, fun g hg halign hmap => ?lD, fun p hp => ?stops⟩
  case ld =>
    have hexec := execPseudo_ld (s := s) (len := len) hwf hq
    rw [readPairStop_of_allocated halign hmap, unlessStop_none] at hexec
    obtain ⟨hlow, hhigh⟩ := readReg_writePair s hq (s.wordAt a) (s.wordAt (a + 4#32))
    refine ⟨_, movesOn_of_execPseudo hexec (by simp) (frame_writePair ..), fun h0 => ?_, ?_⟩
    · rw [State.jump_readReg, readReg_scratchAt (by simp), hlow, if_neg h0, State.wordAt_toNat]
    · rw [State.jump_readReg, readReg_scratchAt (by simp), hhigh, State.wordAt_toNat]
  case lD =>
    obtain ⟨v, hv, hexec⟩ := execPseudo_lD (s := s) (len := len) hwf hg
    rw [readPairStop_of_allocated halign hmap, unlessStop_none] at hexec
    refine ⟨_, movesOn_of_execPseudo hexec (by simp) (frame_writeDouble ..), ?_⟩
    simpa [scratchAt, readDouble_writeDouble] using hv
  case stops =>
    obtain ⟨q, hq, rfl⟩ | ⟨g, hg, rfl⟩ := hp
    · exact readPair_stops rfl (execPseudo_ld hwf hq)
    · obtain ⟨v, -, hexec⟩ := execPseudo_lD (s := s) (len := len) hwf hg
      exact readPair_stops rfl hexec

/-- What the two words of a double-word leave: the second write does not touch the bytes of the first. -/
theorem writePair_effect (hwf : Memory.wf s.mem = true) (a w0 w1 : Word)
    (hu : u = (s.writeBytes (wordCells s.cfg.endian a w0)).writeBytes (wordCells s.cfg.endian (a + 4#32) w1)) :
    frame s u [] [] (bytesFrom a 8) ∧ number u a 4 = w0.toNat ∧ number u (a + 4#32) 4 = w1.toNat := by
  have hwf' : Memory.wf (s.writeBytes (wordCells s.cfg.endian a w0)).mem = true := writeBytes_wf s _ hwf
  have hcfg : (s.writeBytes (wordCells s.cfg.endian a w0)).cfg = s.cfg := State.writeBytes_cfg _ _
  have hfirst := frame_writeBytes (cells := wordCells s.cfg.endian a w0) hwf
  have hsecond := frame_writeBytes (cells := wordCells s.cfg.endian (a + 4#32) w1) hwf'
  rw [wordCells_addresses] at hfirst hsecond
  have hapart : ∀ x ∈ bytesFrom a 4, x ∉ bytesFrom (a + 4#32) 4 := by
    have hnodup := bytesFrom_nodup a (n := 8) (by norm_num)
    rw [bytesFrom_eight] at hnodup
    exact fun x hx hx' => List.disjoint_of_nodup_append hnodup hx hx'
  rw [← hu] at hsecond
  refine ⟨bytesFrom_eight a ▸ frame_trans hfirst hsecond, ?_, ?_⟩
  · obtain ⟨-, -, -, -, hmem, -⟩ := hsecond
    rw [number_congr (s := s.writeBytes (wordCells s.cfg.endian a w0)) (by simp [hu]) 4 fun x hx => hmem x (hapart x hx),
      ← State.wordAt_toNat, wordAt_writeWord s a w0 hwf]
  · have hread := wordAt_writeWord _ (a + 4#32) w1 hwf'
    rw [hcfg] at hread
    rw [hu, ← State.wordAt_toNat, hread]

/-- A store of two words that are both data leaves them. -/
theorem storePair_movesOn (hwf : Memory.wf s.mem = true) (halign : a.toNat % 4 = 0) (hdata : writable s (bytesFrom a 8))
    (h : execPseudo len p s = storePair a w0 w1 (endPseudo len []) s) :
    ∃ t, movesOn len p s t [] [] (bytesFrom a 8) ∧ number t a 4 = w0.toNat ∧ number t (a + 4#32) 4 = w1.toNat := by
  obtain ⟨hframe, hlow, hhigh⟩ := writePair_effect hwf a w0 w1 rfl
  rw [storePair, writePairStop_of_writable halign hdata, unlessStop_none] at h
  refine ⟨_, movesOn_of_execPseudo h (by simp) hframe, ?_, ?_⟩
  · rw [← hlow, number_jump]
    exact number_congr (by simp [scratchAt_cfg]) 4 fun x _ => by simp [scratchAt]
  · rw [← hhigh, number_jump]
    exact number_congr (by simp [scratchAt_cfg]) 4 fun x _ => by simp [scratchAt]

theorem doubleStoresFollow_holds : doubleStoresFollow := by
  intro len s address hwf a
  refine ⟨fun q hq hmem halign hdata => storePair_movesOn hmem halign hdata (execPseudo_sd hwf hq),
    fun f hf hmem halign hdata => ?sD, fun p hp => ?stops⟩
  case sD =>
    obtain ⟨w0, w1, hf64, hexec⟩ := execPseudo_sD (s := s) (len := len) hwf hf
    obtain ⟨t, hmoves, hlow, hhigh⟩ := storePair_movesOn hmem halign hdata hexec
    obtain ⟨-, -, -, -, -, -, -, -, -, hcfg, -⟩ := id hmoves
    exact ⟨t, hmoves, by rw [number_eight, hlow, hhigh, hf64, hcfg]⟩
  case stops =>
    obtain ⟨q, hq, rfl⟩ | ⟨f, hf, rfl⟩ := hp
    · exact writePair_stops (execPseudo_sd hwf hq)
    · obtain ⟨w0, w1, -, hexec⟩ := execPseudo_sD (s := s) (len := len) hwf hf
      exact writePair_stops hexec

/-- After a double-word store the address, the map and the bytes outside are as before. -/
theorem movesOn_place {address : Address} {addrs : List Word} (h : movesOn len p s t [] [] addrs)
    (hbase : ∀ offset, address ≠ .indexed offset 1#5) :
    place t address = place s address ∧ (∀ x, t.classAt x = s.classAt x) ∧ keepsMemory s t addrs := by
  obtain ⟨-, -, hregs, -, -, -, hmem, -, -, hcfg, -⟩ := h
  refine ⟨?_, fun x => by rw [State.classAt, State.classAt, hcfg], hmem⟩
  cases address with
  | absolute value => rfl
  | indexed offset base =>
    have hne : base ≠ 1#5 := fun hb => hbase offset (hb ▸ rfl)
    rw [place, place, hregs base (by simpa using hne)]

/-- A pair stored and loaded again: the load reads the numbers the store left. -/
theorem doubleWordsReturn_holds : doubleWordsReturn := by
  intro len len' s address hmem hwf hbase halign hdata
  obtain ⟨hsd, hsD, -⟩ := doubleStoresFollow_holds len s address hwf
  refine ⟨fun r q hr hq => ?general, fun f g hf hg => ?float⟩
  case general =>
    obtain ⟨t, hmoves, hlow, hhigh⟩ := hsd r hr hmem halign hdata
    obtain ⟨hplace, hclass, hkeeps⟩ := movesOn_place hmoves hbase
    obtain ⟨hld, -⟩ := doubleLoadsFollow_holds len' t address hwf
    rw [hplace] at hld
    obtain ⟨u, ⟨hload, -, -, -, -, -, hmem', -⟩, hfirst, hsecond⟩ :=
      hld q hq halign fun x hx => by simp [hclass, hdata x hx]
    obtain ⟨hstore, -⟩ := hmoves
    exact ⟨t, u, hstore, hload, fun h0 => BitVec.eq_of_toNat_eq ((hfirst h0).trans hlow),
      BitVec.eq_of_toNat_eq (hsecond.trans hhigh), fun x hx => (hmem' x (by simp)).trans (hkeeps x hx)⟩
  case float =>
    obtain ⟨t, hmoves, hnumber⟩ := hsD f hf hmem halign hdata
    obtain ⟨hplace, hclass, hkeeps⟩ := movesOn_place hmoves hbase
    obtain ⟨-, hlD, -⟩ := doubleLoadsFollow_holds len' t address hwf
    rw [hplace] at hlD
    obtain ⟨u, ⟨hload, -, -, -, -, -, hmem', -⟩, hread⟩ :=
      hlD g hg halign fun x hx => by simp [hclass, hdata x hx]
    obtain ⟨hstore, -⟩ := hmoves
    exact ⟨t, u, hstore, hload, BitVec.eq_of_toNat_eq (hread.trans hnumber),
      fun x hx => (hmem' x (by simp)).trans (hkeeps x hx)⟩

/-- Settles O58: the loads and stores of two words, and a load after a store of the same address. -/
theorem doubleWordsSurviveMemory : Obligations.DoubleWordsSurviveMemory :=
  ⟨doubleLoadsFollow_holds, doubleStoresFollow_holds, doubleWordsReturn_holds⟩

end Sys2Proof.Machine
end

section
/-! The general forms (30_encoding.md R109, 45_load.md R255): the assembler makes a machine instruction or a
pseudoinstruction of a statement, and both are the one shared operation, with their own end. -/

namespace Sys2Proof.Machine

open Sys2Proof.Claims

variable {s t u : State} {len : Nat} {p : Pseudo} {i : Instr} {statement : Statement} {rd rs : Reg} {v h l : Word}
  {dests : List Reg} {src2 : Src2} {c : Int} {address : Address}

/-! ## How a statement ends -/

/-- The end of a statement: that of a machine instruction, or of a pseudoinstruction that writes `dests`. -/
def statementEnd (statement : Statement) (dests : List Reg) : State → Result :=
  match statement with
  | .machine _ => done
  | .pseudo len _ => endPseudo len dests

/-- A statement that ends after an update moves past its words, and may change `x[1]` too. -/
theorem statementEnd_next (statement : Statement) (dests : List Reg) (u : State) :
    ∃ t, statementEnd statement dests u = .next t ∧ t.pc = u.pc + BitVec.ofNat 32 (4 * wordsOf statement) ∧
      frame u t [1#5] [] [] ∧ (∀ r ∈ dests, t.readReg r = u.readReg r) ∧ t.hi = u.hi ∧ t.lo = u.lo ∧ t.cfg = u.cfg ∧
      ∀ a, t.byteAt a = u.byteAt a := by
  cases statement with
  | machine i =>
    exact ⟨_, rfl, rfl, frame_mono (frame_refl u) (by simp) (by simp) (by simp), fun _ _ => rfl, rfl, rfl, rfl,
      fun _ => rfl⟩
  | pseudo len p =>
    have hframe := frame_scratchAt u dests
    obtain ⟨-, -, -, ⟨hhi, hlo⟩, hmem, -, -, hcfg, -⟩ := id hframe
    exact ⟨_, rfl, rfl, hframe, fun _ hr => readReg_scratchAt hr, hhi, hlo, hcfg, fun a => hmem a (by simp)⟩

theorem statementSets_of_exec
    (hexec : execStatement statement s = statementEnd statement [rd] (s.writeReg rd v)) :
    statementSets statement s rd v := by
  obtain ⟨t, hnext, hpc, hframe, hregs, -⟩ := statementEnd_next statement [rd] (s.writeReg rd v)
  refine ⟨t, ⟨hexec.trans hnext, hpc, frame_trans (frame_writeReg s rd v) hframe⟩, ?_⟩
  rw [hregs rd (List.mem_singleton_self rd), readReg_writeReg_dest]

/-- What a statement that writes `hi` and `lo` leaves, drawn values or not. -/
theorem statementSetsHiLo_of_exec {n : Nat}
    (hexec : execStatement statement s = statementEnd statement [] ((s.writeHiLo h l).afterDraws n)) :
    statementSetsHiLo statement s h l := by
  obtain ⟨t, hnext, hpc, ⟨hregs, hcop, hflags, -, hmem, hconsole, hrun⟩, -, hhi, hlo, -⟩ :=
    statementEnd_next statement [] ((s.writeHiLo h l).afterDraws n)
  exact ⟨t, hexec.trans hnext, hhi, hlo, hpc, hregs, hcop, hflags, hmem, hconsole, hrun⟩

/-! ## Constants in a field -/

theorem fitsSigned_iff : fitsSigned c = true ↔ constantInRange c = true ∧ signExtendImm (immOf c) = patternOf c := by
  rw [fitsSigned, Bool.and_eq_true, beq_iff_eq]

theorem fitsUnsigned_iff : fitsUnsigned c = true ↔ constantInRange c = true ∧ zeroExtendImm (immOf c) = patternOf c := by
  rw [fitsUnsigned, Bool.and_eq_true, beq_iff_eq]

/-- Whichever of its two forms the assembler takes, a statement is the operation they share. -/
theorem exec_machineOr {fits : Bool} {op : (State → Result) → Result}
    (hmachine : fits = true → exec i s = op done) (hpseudo : execPseudo len p s = op (endPseudo len dests)) :
    execStatement (machineOr fits i len p) s = op (statementEnd (machineOr fits i len p) dests) := by
  cases fits
  · exact hpseudo
  · exact hmachine rfl

/-! ## The operations -/

theorem exec_assembleAlu (op : AluOp) (rd rs : Reg) (len : Nat) (hsrc2 : Src2.wellFormed src2 = true) :
    execStatement (assembleAlu op rd rs src2 len) s =
      generalOperation op rd (s.readReg rs) (operand s src2) (statementEnd (assembleAlu op rd rs src2 len) [rd]) s := by
  cases src2 with
  | reg rt => cases op <;> rfl
  | const c =>
    have hpseudo : execPseudo len (.generalAlu op rd rs c) s =
        generalOperation op rd (s.readReg rs) (patternOf c) (endPseudo len [rd]) s :=
      execPseudo_of_noNames (p := .generalAlu op rd rs c) hsrc2 rfl rfl
    cases op
    case sub | subu | nor | sllv | srlv | srav => exact hpseudo
    case add | addu =>
      refine exec_machineOr (op := fun fin => generalOperation _ rd (s.readReg rs) (patternOf c) fin s)
        (fun hfits => ?_) hpseudo
      obtain ⟨-, hfield⟩ := fitsSigned_iff.1 hfits
      rw [← hfield]
      rfl
    case and | or | xor =>
      refine exec_machineOr (op := fun fin => generalOperation _ rd (s.readReg rs) (patternOf c) fin s)
        (fun hfits => ?_) hpseudo
      obtain ⟨-, hfield⟩ := fitsUnsigned_iff.1 hfits
      rw [← hfield]
      rfl

theorem generalAluAgrees_holds : generalAluAgrees := by
  intro op rd rs src2 len s hsrc2
  have hexec := (exec_assembleAlu (s := s) op rd rs len hsrc2).trans (generalOperation_eq ..)
  split
  case h_1 v hv =>
    rw [hv] at hexec
    exact statementSets_of_exec hexec
  case h_2 hnone =>
    rw [hnone] at hexec
    exact hexec

theorem exec_assembleSlt (rd rs : Reg) (len : Nat) (hsrc2 : Src2.wellFormed src2 = true) :
    execStatement (assembleSlt rd rs src2 len) s =
      setIf .lt rd (s.readReg rs) (operand s src2) (statementEnd (assembleSlt rd rs src2 len) [rd]) s := by
  cases src2 with
  | reg rt => rfl
  | const c =>
    refine exec_machineOr (op := fun fin => setIf .lt rd (s.readReg rs) (patternOf c) fin s) (fun hfits => ?_)
      (execPseudo_set len .lt rd rs hsrc2)
    obtain ⟨-, hfield⟩ := fitsSigned_iff.1 hfits
    rw [← hfield]
    rfl

theorem exec_assembleSltu (rd rs : Reg) (len : Nat) (hsrc2 : Src2.wellFormed src2 = true) :
    execStatement (assembleSltu rd rs src2 len) s =
      setIf .ltu rd (s.readReg rs) (operand s src2) (statementEnd (assembleSltu rd rs src2 len) [rd]) s := by
  cases src2 with
  | reg rt => rfl
  | const c =>
    refine exec_machineOr (op := fun fin => setIf .ltu rd (s.readReg rs) (patternOf c) fin s) (fun hfits => ?_)
      (execPseudo_set len .ltu rd rs hsrc2)
    obtain ⟨-, hfield⟩ := fitsSigned_iff.1 hfits
    rw [← hfield]
    rfl

theorem generalSetsAgree_holds : generalSetsAgree := by
  intro rd rs src2 len s hsrc2
  have hslt := exec_assembleSlt (s := s) rd rs len hsrc2
  have hsltu := exec_assembleSltu (s := s) rd rs len hsrc2
  exact ⟨fun hrel => statementSets_of_exec (hslt.trans (setIf_of_related _ hrel)),
    fun hrel => statementSets_of_exec (hslt.trans (setIf_of_not_related _ hrel)),
    fun hrel => statementSets_of_exec (hsltu.trans (setIf_of_related _ hrel)),
    fun hrel => statementSets_of_exec (hsltu.trans (setIf_of_not_related _ hrel))⟩

theorem exec_assembleHiLo (op : HiLoOp) (rs : Reg) (len : Nat) (hsrc2 : Src2.wellFormed src2 = true) :
    execStatement (assembleHiLo op rs src2 len) s =
      generalHiLoOperation op (s.readReg rs) (operand s src2) (statementEnd (assembleHiLo op rs src2 len) []) s := by
  cases src2 with
  | reg rt => cases op <;> rfl
  | const c =>
    have hpseudo := execPseudo_of_noNames (s := s) (len := len) (p := .generalHiLo op rs c) hsrc2 rfl rfl
    cases op <;> exact hpseudo

theorem generalHiLoAgrees_holds : generalHiLoAgrees := by
  intro rs src2 len s hsrc2 a b corner
  have hexec (op : HiLoOp) := exec_assembleHiLo (s := s) op rs len hsrc2
  refine ⟨statementSetsHiLo_of_exec (n := 0) ((hexec .mult).trans (multiplySigned_eq ..)),
    statementSetsHiLo_of_exec (n := 0) ((hexec .multu).trans (multiplyUnsigned_eq ..)),
    fun hne => statementSetsHiLo_of_exec (n := 0) ((hexec .divu).trans (divideUnsigned_of_ne hne _ s)),
    fun hne hcorner => ⟨_, _, ?signed, dividesTo_signedDivide s hne hcorner⟩,
    fun hcorner => (hexec .div).trans (divideSigned_of_corner hcorner.1 hcorner.2 _ s), fun hzero op hop => ?zero⟩
  case signed =>
    have hdiv := hexec .div
    rw [generalHiLoOperation, divideSigned_of_fits hne hcorner] at hdiv
    exact statementSetsHiLo_of_exec (n := 0) hdiv
  case zero =>
    obtain rfl | rfl := hop
    · exact statementSetsHiLo_of_exec (n := 2) ((hexec .div).trans (if_pos hzero))
    · exact statementSetsHiLo_of_exec (n := 2) ((hexec .divu).trans (if_pos hzero))

/-! ## Loads and stores of an address -/

/-- An address put in one word is the effective address of its field. -/
theorem machineAddress_eq {base : Reg} {offset : BitVec 16} (hm : machineAddress address = some (base, offset)) :
    effectiveAddress s base offset = addressOf s address := by
  cases address with
  | absolute value => cases hm
  | indexed x q =>
    dsimp only [machineAddress] at hm
    split_ifs at hm with hfits
    cases hm
    obtain ⟨-, hfield⟩ := fitsSigned_iff.1 hfits
    rw [effectiveAddress, hfield, addressOf]

theorem exec_assembleLoad (kind : LoadKind) (rt : Reg) (len : Nat) (hwf : Address.wellFormed address = true) :
    execStatement (assembleLoad kind rt address len) s =
      loadReg kind (LoadKind.size kind) (addressOf s address) rt (statementEnd (assembleLoad kind rt address len) [rt])
        s := by
  unfold assembleLoad
  split
  case h_1 => exact execPseudo_of_noNames (p := .generalLoad kind rt address) hwf rfl rfl
  case h_2 base offset hm =>
    rw [← machineAddress_eq hm]
    cases kind <;> rfl

theorem generalLoadsAgree_holds : generalLoadsAgree := by
  intro kind rt address len s hwf a halign hmap
  refine statementSets_of_exec ((exec_assembleLoad kind rt len hwf).trans ?_)
  rw [addressOf_eq_place, loadReg, size_eq_loadBytes, readStop_of_allocated halign hmap, value_eq_loaded, unlessStop_none]

theorem exec_assembleStore (kind : StoreKind) (rt : Reg) (len : Nat) (hwf : Address.wellFormed address = true) :
    execStatement (assembleStore kind rt address len) s =
      storeValue kind (addressOf s address) (s.readReg rt) (statementEnd (assembleStore kind rt address len) []) s := by
  unfold assembleStore
  split
  case h_1 => exact execPseudo_of_noNames (p := .generalStore kind rt address) hwf rfl rfl
  case h_2 base offset hm =>
    rw [← machineAddress_eq hm]
    cases kind <;> rfl

theorem generalStoresAgree_holds : generalStoresAgree := by
  intro kind rt address len s hwf hmem a n halign hdata
  have hn : n = StoreKind.size kind := by cases kind <;> rfl
  rw [hn] at halign hdata ⊢
  have hexec := exec_assembleStore (s := s) kind rt len hwf
  rw [addressOf_eq_place, storeValue_of_writable _ halign hdata] at hexec
  obtain ⟨t, hnext, hpc, hframe, -, -, -, hcfg, hbytes⟩ := statementEnd_next (assembleStore kind rt address len) []
    (s.writeBytes (StoreKind.cells kind s.cfg.endian a (s.readReg rt)))
  have hwrite := frame_writeBytes (cells := StoreKind.cells kind s.cfg.endian a (s.readReg rt)) hmem
  rw [storeKind_cells_addresses] at hwrite
  refine ⟨t, ⟨hexec.trans hnext, by simpa using hpc, frame_mono (frame_trans hwrite hframe) ?_ ?_ ?_⟩, ?_⟩
  · simp
  · simp
  · simp
  · rw [← number_writeCells kind s a (s.readReg rt) hmem]
    exact number_congr hcfg _ fun x _ => hbytes x

/-! ## Constants out of range (R406) -/

theorem constantInRange_iff : constantInRange c = true ↔ -2147483648 ≤ c ∧ c ≤ 4294967295 := by
  simp [constantInRange]

theorem execPseudo_of_badConstant (hp : pseudoPair p = []) (hf : pseudoFloatRegisters p = [])
    (hconst : pseudoConstants p = [c]) (hc : c < -2147483648 ∨ 4294967295 < c) :
    execPseudo len p s = .refused (.constantOutOfRange c) := by
  have hform : formStop p = some (.refuses (.constantOutOfRange c)) := by
    simp [formStop_eq, pseudoRefusals, hp, hf, hconst, hc]
  rw [execPseudo, hform]
  rfl

/-- A constant out of range fits no field, so its statement is the pseudoinstruction. -/
theorem not_fits (hc : c < -2147483648 ∨ 4294967295 < c) : fitsSigned c = false ∧ fitsUnsigned c = false := by
  have hrange : constantInRange c = false := by
    rw [← Bool.not_eq_true, constantInRange_iff]
    omega
  simp [fitsSigned, fitsUnsigned, hrange]

theorem immOf_eq (c : Int) : immOf c = BitVec.ofInt 16 c := by
  apply BitVec.eq_of_toNat_eq
  rw [immOf, patternOf, BitVec.extractLsb'_toNat, BitVec.toNat_ofInt, BitVec.toNat_ofInt]
  simp
  omega

theorem constantsAreChecked_holds : constantsAreChecked := by
  refine ⟨fun c hc len s rd rs => ?rejected, fun c hlow hhigh rt => ?field⟩
  case rejected =>
    obtain ⟨hsigned, hunsigned⟩ := not_fits hc
    dsimp only
    refine ⟨fun op => ?_, ?_, ?_, fun op => ?_, fun address haddress => ?_, ?_⟩
    · have hpseudo := execPseudo_of_badConstant (s := s) (len := len) (p := .generalAlu op rd rs c) rfl rfl rfl hc
      cases op <;> simp only [assembleAlu, hsigned, hunsigned, machineOr] <;> exact hpseudo
    · simp only [assembleSlt, hsigned, machineOr]
      exact execPseudo_of_badConstant rfl rfl rfl hc
    · simp only [assembleSltu, hsigned, machineOr]
      exact execPseudo_of_badConstant rfl rfl rfl hc
    · have hpseudo := execPseudo_of_badConstant (s := s) (len := len) (p := .generalHiLo op rs c) rfl rfl rfl hc
      cases op <;> exact hpseudo
    · have hnone : machineAddress address = none := by
        obtain rfl | ⟨base, rfl⟩ := haddress <;> simp [machineAddress, hsigned]
      simp only [assembleLoad, assembleStore, hnone]
      obtain rfl | ⟨base, rfl⟩ := haddress
      · exact ⟨fun _ => execPseudo_of_badConstant rfl rfl rfl hc, fun _ => execPseudo_of_badConstant rfl rfl rfl hc⟩
      · exact ⟨fun _ => execPseudo_of_badConstant rfl rfl rfl hc, fun _ => execPseudo_of_badConstant rfl rfl rfl hc⟩
    · have hrange : ¬ constantInRange c = true := by
        rw [constantInRange_iff]
        omega
      simp [assembleLui, constantStop, hrange]
  case field =>
    simp [assembleLui, constantStop, constantInRange_iff.2 ⟨hlow, hhigh⟩, immOf_eq]

/-- Settles O59: each form is the shared operation, whichever statement the assembler makes of it. -/
theorem generalFormsAgree : Obligations.GeneralFormsAgree :=
  ⟨generalAluAgrees_holds, generalSetsAgree_holds, generalHiLoAgrees_holds, generalLoadsAgree_holds,
    generalStoresAgree_holds, constantsAreChecked_holds⟩

end Sys2Proof.Machine
end

section
/-! The floating-point instructions (48_floating_point.md): which register or flag each leaves its result in, and the
comparisons of the default `FP` as relations of numbers. -/

namespace Sys2Proof.Machine

open Sys2Proof.Claims

variable {s : State} {i : Instr} {fd fs ft : Reg} {n : Nat}

/-! ## Results of one register or of a pair (R320, R321) -/

theorem setsSingle_of_exec {v : Word} (h : exec i s = done ((s.writeSingle fd v).afterDraws n)) :
    setsSingle i s fd v n := by
  refine ⟨_, h, ?_, ?_, frame_writeSingle s fd v, ?_⟩
  · simp [readSingle_writeSingle]
  · simp [State.nextPc]
  · simp [State.afterDraws]

theorem setsDouble_of_exec {v : DWord} (h : exec i s = done ((s.writeDouble fd v).afterDraws n)) :
    setsDouble i s fd v n := by
  refine ⟨_, h, ?_, ?_, frame_writeDouble s fd v, ?_⟩
  · simp [readDouble_writeDouble]
  · simp [State.nextPc]
  · simp [State.afterDraws]

theorem isNan32_iff (v : Word) : isNan32 v = true ↔ single.valueOf v.toNat = .nan := by rw [isNan32, beq_iff_eq]

theorem isNan64_iff (v : DWord) : isNan64 v = true ↔ double.valueOf v.toNat = .nan := by rw [isNan64, beq_iff_eq]

/-- A pattern with an exponent of all ones and a fraction that is not 0 is a NaN (R322). -/
theorem valueOf_eq_nan {fmt : FloatFormat} {bits : Nat} (hexp : bits / 2 ^ fmt.fracBits % 2 ^ fmt.expBits = fmt.expMax)
    (hfrac : bits % 2 ^ fmt.fracBits ≠ 0) : fmt.valueOf bits = .nan := by
  simp only [FloatFormat.valueOf, hexp, hfrac, if_true, if_false]

/-- What the model draws for a NaN is one (R321(d)). -/
theorem isNan32_nanFrom32 (v : Word) : isNan32 (nanFrom32 v) = true := by
  have hfrac : (if v.extractLsb' 0 23 = 0#23 then 1#23 else v.extractLsb' 0 23).toNat ≠ 0 := by
    split
    · decide
    · next h => exact fun h0 => h (BitVec.eq_of_toNat_eq h0)
  have hlt := (if v.extractLsb' 0 23 = 0#23 then 1#23 else v.extractLsb' 0 23).isLt
  have hbits : (nanFrom32 v).toNat = ((v.extractLsb' 31 1).toNat * 2 ^ 8 + 255) * 2 ^ 23 +
      (if v.extractLsb' 0 23 = 0#23 then 1#23 else v.extractLsb' 0 23).toNat := by
    simp only [nanFrom32, BitVec.toNat_cast, toNat_append_add]
    rfl
  rw [isNan32_iff, hbits]
  refine valueOf_eq_nan ?_ ?_
  · simp only [single, FloatFormat.expMax]
    omega
  · simp only [single]
    omega

theorem isNan64_nanFrom64 (v : DWord) : isNan64 (nanFrom64 v) = true := by
  have hfrac : (if v.extractLsb' 0 52 = 0#52 then 1#52 else v.extractLsb' 0 52).toNat ≠ 0 := by
    split
    · decide
    · next h => exact fun h0 => h (BitVec.eq_of_toNat_eq h0)
  have hlt := (if v.extractLsb' 0 52 = 0#52 then 1#52 else v.extractLsb' 0 52).isLt
  have hbits : (nanFrom64 v).toNat = ((v.extractLsb' 63 1).toNat * 2 ^ 11 + 2047) * 2 ^ 52 +
      (if v.extractLsb' 0 52 = 0#52 then 1#52 else v.extractLsb' 0 52).toNat := by
    simp only [nanFrom64, BitVec.toNat_cast, toNat_append_add]
    rfl
  rw [isNan64_iff, hbits]
  refine valueOf_eq_nan ?_ ?_
  · simp only [double, FloatFormat.expMax]
    omega
  · simp only [double]
    omega

theorem singleResult_of_exec {result : Option Nat} (h : exec i s = done (settleSingle fd (singleOf result) s)) :
    singleResult i s fd result := by
  cases result with
  | some bits => exact setsSingle_of_exec (n := 0) h
  | none => exact ⟨_, isNan32_nanFrom32 _, setsSingle_of_exec (n := 1) h⟩

theorem doubleResult_of_exec {result : Option Nat} (h : exec i s = done (settleDouble fd (doubleOf result) s)) :
    doubleResult i s fd result := by
  cases result with
  | some bits => exact setsDouble_of_exec (n := 0) h
  | none => exact ⟨_, isNan64_nanFrom64 _, setsDouble_of_exec (n := 1) h⟩

theorem settleSingle_some (fd : Reg) (v : Word) (s : State) :
    settleSingle fd (some v) s = (s.writeSingle fd v).afterDraws 0 := rfl

theorem settleDouble_some (fd : Reg) (v : DWord) (s : State) :
    settleDouble fd (some v) s = (s.writeDouble fd v).afterDraws 0 := rfl

/-! ## Even registers -/

/-- A floating-point instruction of even registers passes its check. -/
theorem exec_of_even {r : Result} {l : List Reg} (h : exec i s = unlessStop (evenStop l) s r)
    (hl : floatRegisters i = l) (heven : allEven i) : exec i s = r := by
  rw [h, evenStop_of_allEven hl heven, unlessStop_none]

theorem allEven_of_pair (hl : floatRegisters i = [fd, fs]) (hfd : fd.toNat % 2 = 0) (hfs : fs.toNat % 2 = 0) :
    allEven i := by
  simp [allEven, hl, hfd, hfs]

theorem exec_singleArithmetic {op : FloatOp} (h : singleArithmetic i = some (op, fd, fs, ft)) (heven : allEven i) :
    exec i s = done (settleSingle fd (arithSingle s op (s.readSingle fs) (s.readSingle ft)) s) := by
  cases i <;> cases h
  case addS | subS | mulS | divS => exact exec_of_even rfl rfl heven

theorem exec_doubleArithmetic {op : FloatOp} (h : doubleArithmetic i = some (op, fd, fs, ft)) (heven : allEven i) :
    exec i s = done (settleDouble fd (arithDouble s op (s.readDouble fs) (s.readDouble ft)) s) := by
  cases i <;> cases h
  case addD | subD | mulD | divD => exact exec_of_even rfl rfl heven

/-- Settles O37: the result of the run's `FP` is settled in the destination. -/
theorem floatArithmeticResults : Obligations.FloatArithmeticResults := by
  refine fun i s heven => ⟨fun op fd fs ft h => ?single, fun op fd fs ft h => ?double⟩
  case single =>
    have hexec := exec_singleArithmetic (s := s) h heven
    refine ⟨fun hfp => singleResult_of_exec ?_, fun hfp => setsSingle_of_exec (n := 0) ?_⟩
    · rw [hexec, arithSingle, hfp]
    · rw [hexec, arithSingle, hfp]
      rfl
  case double =>
    have hexec := exec_doubleArithmetic (s := s) h heven
    refine ⟨fun hfp => doubleResult_of_exec ?_, fun hfp => setsDouble_of_exec (n := 0) ?_⟩
    · rw [hexec, arithDouble, hfp]
    · rw [hexec, arithDouble, hfp]
      rfl

/-- Settles O41: so is the result of a conversion. -/
theorem floatConversionResults : Obligations.FloatConversionResults := by
  intro s fd fs hfd hfs
  have hds : exec (.cvtDS fd fs) s = done (settleDouble fd (singleToDouble s (s.readSingle fs)) s) :=
    exec_of_even rfl rfl (allEven_of_pair rfl hfd hfs)
  have hsd : exec (.cvtSD fd fs) s = done (settleSingle fd (doubleToSingle s (s.readDouble fs)) s) :=
    exec_of_even rfl rfl (allEven_of_pair rfl hfd hfs)
  have hdw : exec (.cvtDW fd fs) s = done (settleDouble fd (integerToDouble s (s.readSingle fs)) s) :=
    exec_of_even rfl rfl (allEven_of_pair rfl hfd hfs)
  have hsw : exec (.cvtSW fd fs) s = done (settleSingle fd (integerToSingle s (s.readSingle fs)) s) :=
    exec_of_even rfl rfl (allEven_of_pair rfl hfd hfs)
  refine ⟨fun hfp => ?default, fun hfp => ?host⟩
  case default =>
    simp only [singleToDouble, doubleToSingle, integerToDouble, integerToSingle, hfp] at hds hsd hdw hsw
    exact ⟨doubleResult_of_exec hds, singleResult_of_exec hsd, doubleResult_of_exec hdw, singleResult_of_exec hsw⟩
  case host =>
    simp only [singleToDouble, doubleToSingle, integerToDouble, integerToSingle, hfp] at hds hsd hdw hsw
    exact ⟨setsDouble_of_exec (n := 0) hds, setsSingle_of_exec (n := 0) hsd, setsDouble_of_exec (n := 0) hdw,
      setsSingle_of_exec (n := 0) hsw⟩

/-! ## `abs`, `neg`, `mov` on patterns (R323, R324, R343, R344, R347, R348) -/

theorem absoluteSingle_eq (v : Word) :
    absoluteSingle v = if isNan32 v then none else some (BitVec.ofNat 32 (v.toNat % 2 ^ 31)) := by
  have hbits : ((0#1 ++ v.extractLsb' 0 31).cast rfl : Word) = BitVec.ofNat 32 (v.toNat % 2 ^ 31) := by
    apply BitVec.eq_of_toNat_eq
    rw [BitVec.toNat_cast, toNat_append_add, BitVec.extractLsb'_toNat, BitVec.toNat_ofNat, BitVec.toNat_ofNat]
    simp
    omega
  rw [absoluteSingle, hbits]

theorem absoluteDouble_eq (v : DWord) :
    absoluteDouble v = if isNan64 v then none else some (BitVec.ofNat 64 (v.toNat % 2 ^ 63)) := by
  have hbits : ((0#1 ++ v.extractLsb' 0 63).cast rfl : DWord) = BitVec.ofNat 64 (v.toNat % 2 ^ 63) := by
    apply BitVec.eq_of_toNat_eq
    rw [BitVec.toNat_cast, toNat_append_add, BitVec.extractLsb'_toNat, BitVec.toNat_ofNat, BitVec.toNat_ofNat]
    simp
    omega
  rw [absoluteDouble, hbits]

theorem negateSingle_eq (v : Word) :
    negateSingle v = if isNan32 v then none else some (BitVec.ofNat 32 (v.toNat + 2 ^ 31)) := by
  have hbits : ((~~~(v.extractLsb' 31 1) ++ v.extractLsb' 0 31).cast rfl : Word) = BitVec.ofNat 32 (v.toNat + 2 ^ 31) := by
    apply BitVec.eq_of_toNat_eq
    have := v.isLt
    rw [BitVec.toNat_cast, toNat_append_add, BitVec.toNat_not, BitVec.extractLsb'_toNat, BitVec.extractLsb'_toNat,
      BitVec.toNat_ofNat, Nat.shiftRight_eq_div_pow]
    simp
    omega
  rw [negateSingle, hbits]

theorem negateDouble_eq (v : DWord) :
    negateDouble v = if isNan64 v then none else some (BitVec.ofNat 64 (v.toNat + 2 ^ 63)) := by
  have hbits : ((~~~(v.extractLsb' 63 1) ++ v.extractLsb' 0 63).cast rfl : DWord) = BitVec.ofNat 64 (v.toNat + 2 ^ 63) := by
    apply BitVec.eq_of_toNat_eq
    have := v.isLt
    rw [BitVec.toNat_cast, toNat_append_add, BitVec.toNat_not, BitVec.extractLsb'_toNat, BitVec.extractLsb'_toNat,
      BitVec.toNat_ofNat, Nat.shiftRight_eq_div_pow]
    simp
    omega
  rw [negateDouble, hbits]

/-- Settles O44: the sign bit alone changes, of any pattern but a NaN. -/
theorem floatSignsAndMoves : Obligations.FloatSignsAndMoves := by
  intro s fd fs hfd hfs
  have habsS : exec (.absS fd fs) s = done (settleSingle fd (absoluteSingle (s.readSingle fs)) s) :=
    exec_of_even rfl rfl (allEven_of_pair rfl hfd hfs)
  have hnegS : exec (.negS fd fs) s = done (settleSingle fd (negateSingle (s.readSingle fs)) s) :=
    exec_of_even rfl rfl (allEven_of_pair rfl hfd hfs)
  have habsD : exec (.absD fd fs) s = done (settleDouble fd (absoluteDouble (s.readDouble fs)) s) :=
    exec_of_even rfl rfl (allEven_of_pair rfl hfd hfs)
  have hnegD : exec (.negD fd fs) s = done (settleDouble fd (negateDouble (s.readDouble fs)) s) :=
    exec_of_even rfl rfl (allEven_of_pair rfl hfd hfs)
  rw [absoluteSingle_eq] at habsS
  rw [negateSingle_eq] at hnegS
  rw [absoluteDouble_eq] at habsD
  rw [negateDouble_eq] at hnegD
  rw [Ne, ← isNan32_iff, Ne, ← isNan64_iff]
  refine ⟨setsSingle_of_exec (n := 0) (exec_of_even rfl rfl (allEven_of_pair rfl hfd hfs)),
    setsDouble_of_exec (n := 0) (exec_of_even rfl rfl (allEven_of_pair rfl hfd hfs)), fun h => ?_, fun h => ?_,
    fun h => ?_, fun h => ?_⟩
  · rw [if_neg h, settleSingle_some] at habsS hnegS
    exact ⟨setsSingle_of_exec habsS, setsSingle_of_exec hnegS⟩
  · rw [if_pos h] at habsS hnegS
    exact ⟨singleResult_of_exec (result := none) habsS, singleResult_of_exec (result := none) hnegS⟩
  · rw [if_neg h, settleDouble_some] at habsD hnegD
    exact ⟨setsDouble_of_exec habsD, setsDouble_of_exec hnegD⟩
  · rw [if_pos h] at habsD hnegD
    exact ⟨doubleResult_of_exec (result := none) habsD, doubleResult_of_exec (result := none) hnegD⟩

end Sys2Proof.Machine
end

section
/-! Floating-point values as rational numbers (48_floating_point.md R322), and the comparisons and the conversion to
integer of the default `FP` (R349, R354). -/

namespace Sys2Proof.Machine

open Sys2Proof.Claims

variable {s : State} {i : Instr} {fd fs ft : Reg}

/-! ## Finite values -/

/-- The number `± m * 2^e`. -/
def signedNumber (neg : Bool) (m : Nat) (e : Int) : ℚ := (if neg then -1 else 1) * (m : ℚ) * (2 : ℚ) ^ e

theorem ratOf_fin (neg : Bool) (m : Nat) (e : Int) : ratOf (.fin neg m e) = some (signedNumber neg m e) := rfl

theorem numberOf_fin (neg : Bool) (m : Nat) (e : Int) :
    numberOf (.fin neg m e) = some (((signedNumber neg m e : ℚ) : WithTop ℚ) : WithBot (WithTop ℚ)) := rfl

theorem two_zpow_pos (e : Int) : (0 : ℚ) < (2 : ℚ) ^ e := by positivity

/-- An integer of two values of one scale is the number, in units of that scale. -/
theorem scaledInt_mul (neg : Bool) (m : Nat) {e base : Int} (h : base ≤ e) :
    (scaledInt neg m e base : ℚ) * (2 : ℚ) ^ base = signedNumber neg m e := by
  have hscale : (2 : ℚ) ^ (e - base).toNat * (2 : ℚ) ^ base = (2 : ℚ) ^ e := by
    rw [← zpow_natCast, ← zpow_add₀ two_ne_zero, Int.toNat_of_nonneg (by omega), Int.sub_add_cancel]
  cases neg
  · simp only [scaledInt, signedNumber, Bool.false_eq_true, if_false]
    push_cast
    rw [mul_assoc, hscale, one_mul]
  · simp only [scaledInt, signedNumber, if_true]
    push_cast
    rw [neg_mul, mul_assoc, hscale]
    ring

theorem scaledInt_le_iff (a b : Bool) (m n : Nat) (e f : Int) :
    scaledInt a m e (min e f) ≤ scaledInt b n f (min e f) ↔ signedNumber a m e ≤ signedNumber b n f := by
  rw [← scaledInt_mul a m (min_le_left e f), ← scaledInt_mul b n (min_le_right e f),
    mul_le_mul_iff_left₀ (two_zpow_pos _), Int.cast_le]

/-! ## Comparisons (R354) -/

/-- The model compares values as the numbers they are, the infinities at the two ends. -/
theorem compareValues_iff (rel : FloatRel) (x y : FloatValue) : compareValues rel x y = true ↔ floatRelated rel x y := by
  cases x with
  | nan => simp [compareValues, floatRelated, numberOf]
  | inf a =>
    cases y with
    | nan => simp [compareValues, floatRelated, numberOf]
    | inf b => cases a <;> cases b <;> cases rel <;> simp [compareValues, floatRelated, numberOf]
    | fin b n f => cases a <;> cases rel <;> simp [compareValues, floatRelated, numberOf]
  | fin a m e =>
    cases y with
    | nan => simp [compareValues, floatRelated, numberOf]
    | inf b =>
      have htop (q : ℚ) : ((q : WithTop ℚ) : WithBot (WithTop ℚ)) < ⊤ := WithBot.coe_lt_coe.2 (WithTop.coe_lt_top q)
      cases b <;> cases rel <;> simp [compareValues, floatRelated, numberOf, htop]
    | fin b n f =>
      have hle := scaledInt_le_iff a b m n e f
      have hge := scaledInt_le_iff b a n m f e
      rw [min_comm f e] at hge
      simp only [floatRelated, numberOf_fin, Option.some.injEq, exists_and_left, exists_eq_left', compareValues]
      cases rel
      · simp only [decide_eq_true_eq, WithBot.coe_inj, WithTop.coe_inj]
        rw [le_antisymm_iff, hle, hge, ← le_antisymm_iff]
      · simp only [decide_eq_true_eq, WithBot.coe_le_coe, WithTop.coe_le_coe, hle]
      · simp only [decide_eq_true_eq, WithBot.coe_lt_coe, WithTop.coe_lt_coe]
        rw [← not_le, ← not_le, hge]

/-- What a comparison writes: the flag of coprocessor 1, by the run's `FP`. -/
theorem exec_floatComparison {rel : FloatRel} {x y : FloatValue} (h : floatComparison i s = some (rel, x, y))
    (heven : allEven i) :
    ∃ b, exec i s = done (s.writeFlag 1#2 b) ∧ (s.cfg.fp = .ieee754 → (b = true ↔ floatRelated rel x y)) ∧
      (s.cfg.fp = .hostDefined →
        (∀ fs ft, (i = .cEqS fs ft ∨ i = .cLeS fs ft ∨ i = .cLtS fs ft) →
          b = Config.hostCompare32 rel (s.readSingle fs) (s.readSingle ft)) ∧
        ∀ fs ft, (i = .cEqD fs ft ∨ i = .cLeD fs ft ∨ i = .cLtD fs ft) →
          b = Config.hostCompare64 rel (s.readDouble fs) (s.readDouble ft)) := by
  cases i <;> cases h
  case cEqS fs ft | cLeS fs ft | cLtS fs ft =>
    refine ⟨_, exec_of_even rfl rfl heven, fun hfp => ?_, fun hfp => ⟨?_, by simp⟩⟩
    · rw [flagSingle, hfp]
      exact compareValues_iff ..
    · rw [flagSingle, hfp]
      simp
  case cEqD fs ft | cLeD fs ft | cLtD fs ft =>
    refine ⟨_, exec_of_even rfl rfl heven, fun hfp => ?_, fun hfp => ⟨by simp, ?_⟩⟩
    · rw [flagDouble, hfp]
      exact compareValues_iff ..
    · rw [flagDouble, hfp]
      simp

/-- Settles O40: a comparison writes one flag, which says whether the relation of the numbers holds. -/
theorem floatComparisons : Obligations.FloatComparisons := by
  intro i s rel x y h heven
  obtain ⟨b, hexec, hdefault, hhost⟩ := exec_floatComparison h heven
  have hflag (z : CopNum) : ((s.writeFlag 1#2 b).jump (s.writeFlag 1#2 b).nextPc).readFlag z =
      if z = 1#2 then b else s.readFlag z := by rw [State.jump_readFlag, readFlag_writeFlag]
  obtain ⟨hregs, hcop, -, hhilo, hmem, hconsole, hrun⟩ := frame_refl s
  refine ⟨_, hexec, rfl, ?_, ?_, fun z hz => ?_, hregs, hcop, hhilo, hmem, hconsole, hrun, rfl⟩
  · rw [hflag, if_pos rfl]
    exact hdefault
  · rw [hflag, if_pos rfl]
    exact hhost
  · rw [hflag, if_neg hz]

/-! ## Rounding to an integer (R321(a), R349) -/

variable {rule : Rounding} {q : ℚ} {num den : Nat} {neg : Bool} {m n : Int}

/-- A quotient of naturals is the whole quotient and a part of one. -/
theorem quotient_eq (hden : 0 < den) : (num : ℚ) / den = (num / den : Nat) + ((num % den : Nat) : ℚ) / den := by
  have hd : (den : ℚ) ≠ 0 := by positivity
  rw [div_eq_iff hd, add_mul, div_mul_cancel₀ _ hd]
  exact_mod_cast (Nat.div_add_mod' num den).symm

/-- The nearest integer, ties to even. -/
theorem nearestEvenDiv_spec (num : Nat) (hden : 0 < den) :
    |(num : ℚ) / den - nearestEvenDiv num den| ≤ 1 / 2 ∧
      (|(num : ℚ) / den - nearestEvenDiv num den| = 1 / 2 → nearestEvenDiv num den % 2 = 0) := by
  have hd : (0 : ℚ) < den := by exact_mod_cast hden
  have hrest : ((num % den : Nat) : ℚ) < den := by exact_mod_cast Nat.mod_lt num hden
  have hpart : 0 ≤ ((num % den : Nat) : ℚ) / den := by positivity
  have hpart1 : ((num % den : Nat) : ℚ) / den < 1 := (div_lt_one hd).2 hrest
  rw [quotient_eq hden, nearestEvenDiv]
  split_ifs with hless hmore heven
  · have hhalf : ((num % den : Nat) : ℚ) / den < 1 / 2 := by
      rw [div_lt_iff₀ hd]
      have : (2 : ℚ) * (num % den : Nat) < den := by exact_mod_cast hless
      linarith
    rw [add_sub_cancel_left, abs_of_nonneg hpart]
    exact ⟨hhalf.le, fun h => absurd h hhalf.ne⟩
  · have hhalf : 1 / 2 < ((num % den : Nat) : ℚ) / den := by
      rw [lt_div_iff₀ hd]
      have : (den : ℚ) < 2 * (num % den : Nat) := by exact_mod_cast hmore
      linarith
    push_cast
    rw [add_sub_add_left_eq_sub, abs_of_neg (by linarith)]
    exact ⟨by linarith, fun h => by linarith⟩
  · have hhalf : ((num % den : Nat) : ℚ) / den = 1 / 2 := by
      rw [div_eq_iff hd.ne']
      have : (2 : ℚ) * (num % den : Nat) = den := by exact_mod_cast (by omega : 2 * (num % den) = den)
      linarith
    rw [add_sub_cancel_left, hhalf, abs_of_pos (by norm_num)]
    exact ⟨le_rfl, fun _ => heven⟩
  · have hhalf : ((num % den : Nat) : ℚ) / den = 1 / 2 := by
      rw [div_eq_iff hd.ne']
      have : (2 : ℚ) * (num % den : Nat) = den := by exact_mod_cast (by omega : 2 * (num % den) = den)
      linarith
    push_cast
    rw [add_sub_add_left_eq_sub, hhalf, abs_of_neg (by norm_num)]
    exact ⟨by norm_num, fun _ => by omega⟩

/-- Whole numbers on both sides of a quotient. -/
theorem quotient_bounds (num : Nat) (hden : 0 < den) :
    ((num / den : Nat) : ℚ) ≤ num / den ∧ (num : ℚ) / den < (num / den : Nat) + 1 ∧
      (num % den = 0 → (num : ℚ) / den = (num / den : Nat)) ∧
      (num % den ≠ 0 → ((num / den : Nat) : ℚ) < num / den) := by
  have hd : (0 : ℚ) < den := by exact_mod_cast hden
  have hrest : ((num % den : Nat) : ℚ) < den := by exact_mod_cast Nat.mod_lt num hden
  have hpart1 : ((num % den : Nat) : ℚ) / den < 1 := (div_lt_one hd).2 hrest
  have hpart : 0 ≤ ((num % den : Nat) : ℚ) / den := by positivity
  rw [quotient_eq hden]
  refine ⟨by linarith, by linarith, fun h0 => by simp [h0], fun h0 => ?_⟩
  have : 0 < ((num % den : Nat) : ℚ) / den := div_pos (by exact_mod_cast Nat.pos_of_ne_zero h0) hd
  linarith

/-- The model's integer is what the rule makes of the number. -/
theorem roundsTo_roundToInt (rule : Rounding) (neg : Bool) (num : Nat) (hden : 0 < den) :
    roundsTo rule ((if neg then -1 else 1) * ((num : ℚ) / den)) (roundToInt rule neg num den) := by
  obtain ⟨hlow, hhigh, hexact, hinexact⟩ := quotient_bounds num hden
  have hnonneg : (0 : ℚ) ≤ (num : ℚ) / den := by positivity
  have hup : (num : ℚ) / den ≤ ((if num % den = 0 then num / den else num / den + 1 : Nat) : ℚ) ∧
      ((if num % den = 0 then num / den else num / den + 1 : Nat) : ℚ) < (num : ℚ) / den + 1 := by
    split_ifs with h0
    · exact ⟨(hexact h0).le, by linarith⟩
    · have := hinexact h0
      push_cast
      exact ⟨hhigh.le, by linarith⟩
  obtain ⟨hup, hup1⟩ := hup
  cases rule
  case nearestEven =>
    obtain ⟨hnear, htie⟩ := nearestEvenDiv_spec num hden
    cases neg
    · simp only [roundsTo, roundToInt, Bool.false_eq_true, if_false, one_mul, Int.cast_natCast]
      exact ⟨hnear, fun h => by exact_mod_cast htie h⟩
    · simp only [roundsTo, roundToInt, if_true, neg_mul, one_mul, Int.cast_neg, Int.cast_natCast]
      rw [neg_sub_neg, abs_sub_comm]
      exact ⟨hnear, fun h => by have := htie h; omega⟩
  case towardZero =>
    cases neg
    · simp only [roundsTo, roundToInt, Bool.false_eq_true, if_false, one_mul, Int.cast_natCast, hnonneg, if_true]
      exact ⟨hlow, hhigh⟩
    · simp only [roundsTo, roundToInt, if_true, neg_mul, one_mul, Int.cast_neg, Int.cast_natCast]
      split_ifs with hneg
      · have h0 : (num : ℚ) / den = 0 := by linarith
        rw [h0] at hlow hhigh ⊢
        have hzero : ((num / den : Nat) : ℚ) = 0 := le_antisymm hlow (Nat.cast_nonneg _)
        rw [hzero]
        norm_num
      · exact ⟨by linarith, by linarith⟩
  case towardMinusInfinity =>
    cases neg
    · simp only [roundsTo, roundToInt, Bool.false_eq_true, if_false, one_mul, Int.cast_natCast]
      exact ⟨hlow, hhigh⟩
    · simp only [roundsTo, roundToInt, if_true, neg_mul, one_mul, Int.cast_neg, Int.cast_natCast]
      exact ⟨by linarith, by linarith⟩
  case towardPlusInfinity =>
    cases neg
    · simp only [roundsTo, roundToInt, Bool.false_eq_true, if_false, one_mul, Int.cast_natCast]
      exact ⟨hup, by linarith⟩
    · simp only [roundsTo, roundToInt, if_true, neg_mul, one_mul, Int.cast_neg, Int.cast_natCast]
      exact ⟨by linarith, by linarith⟩

/-- Integers less than one apart are equal. -/
theorem int_eq_of_close (h1 : (m : ℚ) < n + 1) (h2 : (n : ℚ) < m + 1) : m = n := by
  have h1' : m < n + 1 := by exact_mod_cast h1
  have h2' : n < m + 1 := by exact_mod_cast h2
  omega

/-- A rule makes one integer of a number. -/
theorem roundsTo_unique (hm : roundsTo rule q m) (hn : roundsTo rule q n) : m = n := by
  cases rule
  case nearestEven =>
    obtain ⟨hm, hmtie⟩ := hm
    obtain ⟨hn, hntie⟩ := hn
    rw [abs_le] at hm hn
    by_contra hne
    have hstep : m = n + 1 ∨ n = m + 1 := by
      have h1 : (m : ℚ) ≤ n + 1 := by linarith
      have h2 : (n : ℚ) ≤ m + 1 := by linarith
      have h1' : m ≤ n + 1 := by exact_mod_cast h1
      have h2' : n ≤ m + 1 := by exact_mod_cast h2
      omega
    obtain rfl | rfl := hstep
    · push_cast at hm hmtie
      have hq : q = n + 1 / 2 := by linarith
      have h1 := hntie (by rw [hq, add_sub_cancel_left, abs_of_pos (by norm_num)])
      have h2 := hmtie (by rw [hq, add_sub_add_left_eq_sub, abs_of_neg (by norm_num)]; norm_num)
      omega
    · push_cast at hn hntie
      have hq : q = m + 1 / 2 := by linarith
      have h1 := hmtie (by rw [hq, add_sub_cancel_left, abs_of_pos (by norm_num)])
      have h2 := hntie (by rw [hq, add_sub_add_left_eq_sub, abs_of_neg (by norm_num)]; norm_num)
      omega
  case towardZero =>
    simp only [roundsTo] at hm hn
    split_ifs at hm hn
    · exact int_eq_of_close (by linarith) (by linarith)
    · exact int_eq_of_close (by linarith) (by linarith)
  case towardMinusInfinity =>
    obtain ⟨hm, hm'⟩ := hm
    obtain ⟨hn, hn'⟩ := hn
    exact int_eq_of_close (by linarith) (by linarith)
  case towardPlusInfinity =>
    obtain ⟨hm, hm'⟩ := hm
    obtain ⟨hn, hn'⟩ := hn
    exact int_eq_of_close (by linarith) (by linarith)

/-- An integer is left as it is by every rule. -/
theorem roundsTo_intCast (rule : Rounding) (n : Int) : roundsTo rule (n : ℚ) n := by
  cases rule
  case nearestEven => simp [roundsTo]
  case towardZero =>
    simp only [roundsTo]
    split_ifs
    · exact ⟨le_rfl, by linarith⟩
    · exact ⟨le_rfl, by linarith⟩
  case towardMinusInfinity => exact ⟨le_rfl, by linarith⟩
  case towardPlusInfinity => exact ⟨le_rfl, by linarith⟩

/-- A finite value as a quotient of naturals. -/
theorem signedNumber_eq_div (neg : Bool) (m : Nat) (e : Int) :
    signedNumber neg m e = (if neg then -1 else 1) * (((m * 2 ^ e.toNat : Nat) : ℚ) / ((2 ^ (-e).toNat : Nat) : ℚ)) := by
  have hpow : (2 : ℚ) ^ e = 2 ^ e.toNat / 2 ^ (-e).toNat := by
    rw [← zpow_natCast, ← zpow_natCast, ← zpow_sub₀ two_ne_zero]
    congr 1
    omega
  rw [signedNumber, hpow]
  push_cast
  ring

/-- What `FP_CVT_W` makes of a value: the rounded integer where it fits (R349). -/
theorem integerOf_of_roundsTo {x : FloatValue} (hx : ratOf x = some q) (hn : roundsTo rule q n) :
    integerOf rule x = if -2147483648 ≤ n ∧ n ≤ 2147483647 then some (BitVec.ofInt 32 n) else none := by
  cases x with
  | nan => cases hx
  | inf a => cases hx
  | fin neg m e =>
    rw [ratOf_fin, Option.some.injEq, signedNumber_eq_div] at hx
    have hmodel := roundsTo_roundToInt rule neg (m * 2 ^ e.toNat) (den := 2 ^ (-e).toNat) (by positivity)
    rw [hx] at hmodel
    rw [integerOf, roundsTo_unique hmodel hn]

theorem integerOf_of_none {x : FloatValue} (hx : ratOf x = none) : integerOf rule x = none := by
  cases x with
  | nan => rfl
  | inf a => rfl
  | fin neg m e => cases hx

theorem exec_toInteger {x : FloatValue} (h : toInteger i s = some (fd, x)) (heven : allEven i) :
    exec i s = done (settleInteger fd (integerOf s.cfg.cvtW x) s) := by
  cases i <;> cases h
  case cvtWS | cvtWD => exact exec_of_even rfl rfl heven

theorem setsSingle_of_integer {v : Word} {result : Option Word} (hexec : exec i s = done (settleInteger fd result s))
    (h : result = some v) : setsSingle i s fd v 0 := by
  rw [h] at hexec
  exact setsSingle_of_exec (n := 0) hexec

theorem setsSingle_of_drawn {result : Option Word} (hexec : exec i s = done (settleInteger fd result s))
    (h : result = none) : setsSingle i s fd (Config.draw32 s.draws) 1 := by
  rw [h] at hexec
  exact setsSingle_of_exec (n := 1) hexec

/-- Settles O42: the rule of the run makes one integer of a number, which the model tests for its range. -/
theorem conversionToInteger : Obligations.ConversionToInteger := by
  intro i s fd x h heven
  have hexec := exec_toInteger h heven
  have hfits (q : ℚ) (n : Int) (hx : ratOf x = some q) (hn : roundsTo s.cfg.cvtW q n) (hlow : -2 ^ 31 ≤ n)
      (hhigh : n ≤ 2 ^ 31 - 1) : setsSingle i s fd (BitVec.ofInt 32 n) 0 := by
    refine setsSingle_of_integer hexec ?_
    rw [integerOf_of_roundsTo hx hn, if_pos (by omega)]
  refine ⟨fun n hx hlow hhigh => hfits n n hx (roundsTo_intCast _ n) hlow hhigh, hfits, fun hout => ?drawn⟩
  case drawn =>
    refine setsSingle_of_drawn hexec ?_
    obtain hnone | ⟨q, n, hx, hn, hrange⟩ := hout
    · exact integerOf_of_none hnone
    · rw [integerOf_of_roundsTo hx hn, if_neg (by omega)]

end Sys2Proof.Machine
end

section
/-! Rounding to a format (48_floating_point.md R321, R322): the model rounds a number in units of the place of its last
digit, which makes its pattern the nearest one. -/

namespace Sys2Proof.Machine

open Sys2Proof.Claims

variable {fmt : FloatFormat} {neg : Bool} {num den expo frac p mant bits : Nat} {exp : Int} {x y z r : ℚ}

/-! ## The fields of a pattern -/

theorem expMax_add_one (fmt : FloatFormat) : fmt.expMax + 1 = 2 ^ fmt.expBits := Nat.sub_add_cancel Nat.one_le_two_pow

/-- What the proofs use of the two formats: a fraction of a bit or more, and exponents enough. -/
def FloatFormat.wide (fmt : FloatFormat) : Prop := 1 ≤ fmt.fracBits ∧ 3 ≤ fmt.expMax

theorem wide_of_format (h : fmt = single ∨ fmt = double) : fmt.wide := by
  obtain rfl | rfl := h <;> exact ⟨by decide, by decide⟩

/-- The value of a pattern, from its sign, exponent field and fraction. -/
theorem valueOf_fields (neg : Bool) (hexpo : expo < 2 ^ fmt.expBits) (hfrac : frac < 2 ^ fmt.fracBits) :
    fmt.valueOf (fmt.withSign neg (expo * 2 ^ fmt.fracBits + frac)) =
      if expo = fmt.expMax then (if frac = 0 then .inf neg else .nan)
      else if expo = 0 then .fin neg frac fmt.minExp
      else .fin neg (2 ^ fmt.fracBits + frac) (fmt.minExp + (expo : Int) - 1) := by
  have hbits : fmt.withSign neg (expo * 2 ^ fmt.fracBits + frac) =
      (neg.toNat * 2 ^ fmt.expBits + expo) * 2 ^ fmt.fracBits + frac := by
    cases neg
    · simp [FloatFormat.withSign]
    · simp only [FloatFormat.withSign, if_true, Bool.toNat_true, pow_add]
      ring
  have hlow : fmt.withSign neg (expo * 2 ^ fmt.fracBits + frac) % 2 ^ fmt.fracBits = frac := by
    rw [hbits, Nat.mul_add_mod', Nat.mod_eq_of_lt hfrac]
  have hhigh : fmt.withSign neg (expo * 2 ^ fmt.fracBits + frac) / 2 ^ fmt.fracBits =
      neg.toNat * 2 ^ fmt.expBits + expo := by
    rw [hbits, Nat.add_comm, Nat.add_mul_div_right _ _ (by positivity), Nat.div_eq_of_lt hfrac, Nat.zero_add]
  have hexp : (neg.toNat * 2 ^ fmt.expBits + expo) % 2 ^ fmt.expBits = expo := by
    rw [Nat.mul_add_mod', Nat.mod_eq_of_lt hexpo]
  have hsign : (neg.toNat * 2 ^ fmt.expBits + expo) / 2 ^ fmt.expBits = neg.toNat := by
    rw [Nat.add_comm, Nat.add_mul_div_right _ _ (by positivity), Nat.div_eq_of_lt hexpo, Nat.zero_add]
  have hneg : (neg.toNat % 2 == 1) = neg := by cases neg <;> rfl
  simp only [FloatFormat.valueOf, pow_add, ← Nat.div_div_eq_div_mul, hlow, hhigh, hexp, hsign, hneg]

theorem valueOf_infinity (neg : Bool) : fmt.valueOf (fmt.withSign neg fmt.infinity) = .inf neg := by
  have hlt : fmt.expMax < 2 ^ fmt.expBits := by
    have := expMax_add_one fmt
    omega
  have h := valueOf_fields (fmt := fmt) neg hlt (frac := 0) (by positivity)
  rwa [Nat.add_zero, if_pos rfl, if_pos rfl] at h

theorem valueOf_zero (hw : fmt.wide) (neg : Bool) : fmt.valueOf (fmt.withSign neg 0) = .fin neg 0 fmt.minExp := by
  obtain ⟨-, hmax⟩ := hw
  have h := valueOf_fields (fmt := fmt) neg (expo := 0) (frac := 0) (by positivity) (by positivity)
  rwa [Nat.zero_mul, Nat.add_zero, if_neg (by omega), if_pos rfl] at h

theorem infinity_lt (fmt : FloatFormat) : fmt.infinity < 2 ^ (fmt.fracBits + fmt.expBits) := by
  have := expMax_add_one fmt
  rw [FloatFormat.infinity, pow_add, Nat.mul_comm]
  exact Nat.mul_lt_mul_of_pos_left (by omega) (by positivity)

theorem valueOf_subnormal (hw : fmt.wide) (neg : Bool) {m : Nat} (hm : m < 2 ^ fmt.fracBits) :
    fmt.valueOf (fmt.withSign neg (0 * 2 ^ fmt.fracBits + m)) = .fin neg m fmt.minExp := by
  obtain ⟨-, hmax⟩ := hw
  rw [valueOf_fields neg (by positivity) hm, if_neg (by omega), if_pos rfl]

theorem valueOf_normal (neg : Bool) {m : Nat} (hexpo : expo + 1 < fmt.expMax) (hlow : 2 ^ fmt.fracBits ≤ m)
    (hm : m < 2 ^ (fmt.fracBits + 1)) :
    fmt.valueOf (fmt.withSign neg ((expo + 1) * 2 ^ fmt.fracBits + (m - 2 ^ fmt.fracBits))) =
      .fin neg m (fmt.minExp + expo) := by
  have hmax := expMax_add_one fmt
  rw [pow_succ] at hm
  rw [valueOf_fields neg (by omega) (by omega), if_neg hexpo.ne, if_neg (by omega), Nat.add_sub_cancel' hlow]
  congr 1
  push_cast
  ring

/-- Every finite pattern is a significand of the format's width, at one of its places. -/
theorem fin_form (hw : fmt.wide) {c m : Nat} {e : Int} (h : fmt.valueOf c = .fin neg m e) :
    m < 2 ^ (fmt.fracBits + 1) ∧ ∃ k : Nat, e = fmt.minExp + k ∧ k + 2 ≤ fmt.expMax := by
  obtain ⟨-, hwide⟩ := hw
  have hmax := expMax_add_one fmt
  have hexpo : c / 2 ^ fmt.fracBits % 2 ^ fmt.expBits < 2 ^ fmt.expBits := Nat.mod_lt _ (by positivity)
  have hfrac : c % 2 ^ fmt.fracBits < 2 ^ fmt.fracBits := Nat.mod_lt _ (by positivity)
  rw [pow_succ]
  simp only [FloatFormat.valueOf] at h
  split_ifs at h with hinf hnan hzero
  · cases h
    exact ⟨by omega, 0, by simp, by omega⟩
  · cases h
    exact ⟨by omega, c / 2 ^ fmt.fracBits % 2 ^ fmt.expBits - 1, by omega, by omega⟩

theorem ratOf_some {v : FloatValue} (h : ratOf v = some z) : ∃ a m e, v = .fin a m e ∧ z = signedNumber a m e := by
  cases v with
  | nan => cases h
  | inf a => cases h
  | fin a m e => exact ⟨a, m, e, rfl, (Option.some.inj h).symm⟩

theorem abs_sign_mul (neg : Bool) (w : ℚ) : |(if neg then -1 else 1) * w| = |w| := by cases neg <;> simp

theorem abs_signedNumber (neg : Bool) (m : Nat) (e : Int) : |signedNumber neg m e| = m * (2 : ℚ) ^ e := by
  rw [signedNumber, mul_assoc, abs_sign_mul, abs_of_nonneg (by positivity)]

theorem finite_form (hw : fmt.wide) {c : Nat} (h : ratOf (fmt.valueOf c) = some z) :
    ∃ m j : Nat, m < 2 ^ (fmt.fracBits + 1) ∧ |z| = m * (2 : ℚ) ^ (fmt.minExp + j) := by
  obtain ⟨neg, m, e, hvalue, rfl⟩ := ratOf_some h
  obtain ⟨hm, j, rfl, -⟩ := fin_form hw hvalue
  exact ⟨m, j, hm, abs_signedNumber neg m _⟩

/-! ## The place of the last digit -/

theorem two_zpow_eq_div (k : Int) : (2 : ℚ) ^ k = 2 ^ k.toNat / 2 ^ (-k).toNat := by
  rw [← zpow_natCast, ← zpow_natCast, ← zpow_sub₀ two_ne_zero]
  congr 1
  omega

/-- The greatest power of two that is not above a quotient. -/
theorem floorLog2_spec (hnum : 0 < num) (hden : 0 < den) :
    (2 : ℚ) ^ floorLog2 num den ≤ num / den ∧ (num : ℚ) / den < (2 : ℚ) ^ (floorLog2 num den + 1) := by
  have hd : (0 : ℚ) < den := by exact_mod_cast hden
  have hnumLow : (2 : ℚ) ^ (Nat.log2 num : Int) ≤ num := by
    rw [zpow_natCast]
    exact_mod_cast Nat.log2_self_le hnum.ne'
  have hnumHigh : (num : ℚ) < (2 : ℚ) ^ ((Nat.log2 num : Int) + 1) := by
    rw [← Nat.cast_succ, zpow_natCast]
    exact_mod_cast Nat.lt_log2_self
  have hdenLow : (2 : ℚ) ^ (Nat.log2 den : Int) ≤ den := by
    rw [zpow_natCast]
    exact_mod_cast Nat.log2_self_le hden.ne'
  have hdenHigh : (den : ℚ) < (2 : ℚ) ^ ((Nat.log2 den : Int) + 1) := by
    rw [← Nat.cast_succ, zpow_natCast]
    exact_mod_cast Nat.lt_log2_self
  have hbelow : (2 : ℚ) ^ ((Nat.log2 num : Int) - (Nat.log2 den : Int) - 1) ≤ num / den := by
    rw [le_div_iff₀ hd]
    calc (2 : ℚ) ^ ((Nat.log2 num : Int) - Nat.log2 den - 1) * den
        ≤ (2 : ℚ) ^ ((Nat.log2 num : Int) - Nat.log2 den - 1) * (2 : ℚ) ^ ((Nat.log2 den : Int) + 1) :=
          mul_le_mul_of_nonneg_left hdenHigh.le (two_zpow_pos _).le
      _ = (2 : ℚ) ^ (Nat.log2 num : Int) := by rw [← zpow_add₀ two_ne_zero]; congr 1; ring
      _ ≤ num := hnumLow
  have habove : (num : ℚ) / den < (2 : ℚ) ^ ((Nat.log2 num : Int) - (Nat.log2 den : Int) + 1) := by
    rw [div_lt_iff₀ hd]
    calc (num : ℚ) < (2 : ℚ) ^ ((Nat.log2 num : Int) + 1) := hnumHigh
      _ = (2 : ℚ) ^ ((Nat.log2 num : Int) - Nat.log2 den + 1) * (2 : ℚ) ^ (Nat.log2 den : Int) := by
        rw [← zpow_add₀ two_ne_zero]; congr 1; ring
      _ ≤ (2 : ℚ) ^ ((Nat.log2 num : Int) - Nat.log2 den + 1) * den :=
        mul_le_mul_of_nonneg_left hdenLow (two_zpow_pos _).le
  have htest (k : Int) : num * 2 ^ (-k).toNat < den * 2 ^ k.toNat ↔ (num : ℚ) / den < (2 : ℚ) ^ k := by
    rw [two_zpow_eq_div, div_lt_div_iff₀ hd (by positivity), mul_comm ((2 : ℚ) ^ k.toNat)]
    exact_mod_cast Iff.rfl
  simp only [floorLog2, htest]
  split_ifs with hless
  · rw [Int.sub_add_cancel]
    exact ⟨hbelow, hless⟩
  · exact ⟨not_lt.1 hless, habove⟩

/-- A number `x` in units of a place from the least on: `y` units, `mant` the nearest whole number of them. The unit is
chosen so that the significand fills its width, if the least place lets it. -/
structure Placed (fmt : FloatFormat) (x : ℚ) (p mant : Nat) (y : ℚ) : Prop where
  value : x = y * (2 : ℚ) ^ (fmt.minExp + p)
  near : |y - mant| ≤ 1 / 2
  tie : |y - mant| = 1 / 2 → mant % 2 = 0
  below : y < 2 ^ (fmt.fracBits + 1)
  above : p = 0 ∨ 2 ^ fmt.fracBits ≤ y

/-- The magnitude the model rounds to is a whole number of units at the number's place, or the infinity. -/
theorem roundMagnitude_placed (fmt : FloatFormat) (hnum : 0 < num) (hden : 0 < den) (exp : Int) :
    ∃ p mant y, Placed fmt ((num : ℚ) / den * (2 : ℚ) ^ exp) p mant y ∧
      fmt.roundMagnitude num den exp =
        if fmt.infinity ≤ p * 2 ^ fmt.fracBits + mant then fmt.infinity else p * 2 ^ fmt.fracBits + mant := by
  obtain ⟨hlog, hlog1⟩ := floorLog2_spec hnum hden
  set place : Int := max fmt.minExp (floorLog2 num den + exp - fmt.fracBits) with hplace
  have hp : fmt.minExp + ((place - fmt.minExp).toNat : Int) = place := by omega
  have hy : (num : ℚ) / den * (2 : ℚ) ^ (exp - place) =
      ((num * 2 ^ (exp - place).toNat : Nat) : ℚ) / ((den * 2 ^ (-(exp - place)).toNat : Nat) : ℚ) := by
    rw [two_zpow_eq_div]
    push_cast
    rw [div_mul_div_comm]
  obtain ⟨hnear, htie⟩ := nearestEvenDiv_spec (num * 2 ^ (exp - place).toNat)
    (den := den * 2 ^ (-(exp - place)).toNat) (by positivity)
  rw [← hy] at hnear htie
  refine ⟨(place - fmt.minExp).toNat, _, _, ⟨?_, hnear, htie, ?_, ?_⟩, ?_⟩
  · rw [hp, mul_assoc, ← zpow_add₀ two_ne_zero, Int.sub_add_cancel]
  · calc (num : ℚ) / den * (2 : ℚ) ^ (exp - place)
        < (2 : ℚ) ^ (floorLog2 num den + 1) * (2 : ℚ) ^ (exp - place) :=
          mul_lt_mul_of_pos_right hlog1 (two_zpow_pos _)
      _ = (2 : ℚ) ^ (floorLog2 num den + 1 + (exp - place)) := (zpow_add₀ two_ne_zero _ _).symm
      _ ≤ (2 : ℚ) ^ ((fmt.fracBits + 1 : Nat) : Int) := zpow_le_zpow_right₀ one_le_two (by push_cast; omega)
      _ = 2 ^ (fmt.fracBits + 1) := zpow_natCast _ _
  · by_cases hleast : place = fmt.minExp
    · exact .inl (by omega)
    · right
      calc (2 : ℚ) ^ fmt.fracBits = (2 : ℚ) ^ ((fmt.fracBits : Nat) : Int) := (zpow_natCast _ _).symm
        _ = (2 : ℚ) ^ (floorLog2 num den + (exp - place)) := by congr 1; omega
        _ = (2 : ℚ) ^ floorLog2 num den * (2 : ℚ) ^ (exp - place) := zpow_add₀ two_ne_zero _ _
        _ ≤ (num : ℚ) / den * (2 : ℚ) ^ (exp - place) := mul_le_mul_of_nonneg_right hlog (two_zpow_pos _).le
  · rw [FloatFormat.roundMagnitude, if_neg hnum.ne']

/-! ## What the rounded number is -/

section Placed

variable (h : Placed fmt x p mant y)

include h

theorem Placed.mant_le : mant ≤ 2 ^ (fmt.fracBits + 1) := by
  obtain ⟨hnear, -⟩ := abs_le.1 h.near
  have hbelow := h.below
  have hlt : (mant : ℚ) < ((2 ^ (fmt.fracBits + 1) : Nat) : ℚ) + 1 := by
    push_cast
    linarith
  exact Nat.le_of_lt_succ (by exact_mod_cast hlt)

theorem Placed.mant_ge : p = 0 ∨ 2 ^ fmt.fracBits ≤ mant := by
  refine h.above.imp_right fun habove => ?_
  obtain ⟨-, hnear⟩ := abs_le.1 h.near
  have hlt : ((2 ^ fmt.fracBits : Nat) : ℚ) < (mant : ℚ) + 1 := by
    push_cast
    linarith
  exact Nat.le_of_lt_succ (by exact_mod_cast hlt)

/-- The pattern of the rounded number has its value: a significand of one more bit than its width carries into the
exponent. -/
theorem Placed.valueOf_eq (hw : fmt.wide) (neg : Bool) (hfinite : p * 2 ^ fmt.fracBits + mant < fmt.infinity) :
    ∃ m e, fmt.valueOf (fmt.withSign neg (p * 2 ^ fmt.fracBits + mant)) = .fin neg m e ∧
      (m : ℚ) * (2 : ℚ) ^ e = mant * (2 : ℚ) ^ (fmt.minExp + p) := by
  have hpow : 2 ^ (fmt.fracBits + 1) = 2 ^ fmt.fracBits + 2 ^ fmt.fracBits := by rw [pow_succ, Nat.mul_two]
  have hpos : 0 < 2 ^ fmt.fracBits := by positivity
  have hlt {expo frac : Nat} (hbits : p * 2 ^ fmt.fracBits + mant = expo * 2 ^ fmt.fracBits + frac) :
      expo < fmt.expMax := by
    rw [hbits, FloatFormat.infinity] at hfinite
    exact Nat.lt_of_mul_lt_mul_right (Nat.lt_of_le_of_lt (Nat.le_add_right _ _) hfinite)
  by_cases hsub : mant < 2 ^ fmt.fracBits
  · obtain rfl : p = 0 := h.mant_ge.resolve_right (by omega)
    exact ⟨_, _, valueOf_subnormal hw neg hsub, by simp⟩
  have hle := h.mant_le
  by_cases hcarry : mant < 2 ^ (fmt.fracBits + 1)
  · have hbits : p * 2 ^ fmt.fracBits + mant = (p + 1) * 2 ^ fmt.fracBits + (mant - 2 ^ fmt.fracBits) := by
      rw [Nat.add_mul]
      omega
    exact ⟨_, _, hbits ▸ valueOf_normal neg (hlt hbits) (by omega) hcarry, rfl⟩
  · have hbits : p * 2 ^ fmt.fracBits + mant =
        (p + 1 + 1) * 2 ^ fmt.fracBits + (2 ^ fmt.fracBits - 2 ^ fmt.fracBits) := by
      rw [Nat.add_mul, Nat.add_mul]
      omega
    refine ⟨_, _, hbits ▸ valueOf_normal neg (hlt hbits) le_rfl (by omega), ?_⟩
    have hmant : mant = 2 ^ fmt.fracBits * 2 := by omega
    have hexp : fmt.minExp + ((p + 1 : Nat) : Int) = fmt.minExp + p + 1 := by
      push_cast
      ring
    rw [hmant, hexp, zpow_add_one₀ two_ne_zero]
    push_cast
    ring

/-- Half a unit below the next power of two is where a significand carries. -/
theorem Placed.carry_iff : 2 ^ (fmt.fracBits + 1) ≤ mant ↔ (2 : ℚ) ^ (fmt.fracBits + 1) - 1 / 2 ≤ y := by
  obtain ⟨hlow, hhigh⟩ := abs_le.1 h.near
  constructor
  · intro hle
    have hle' : ((2 ^ (fmt.fracBits + 1) : Nat) : ℚ) ≤ mant := by exact_mod_cast hle
    push_cast at hle'
    linarith
  · intro hle
    by_contra hlt
    have hle' : (mant : ℚ) + 1 ≤ ((2 ^ (fmt.fracBits + 1) : Nat) : ℚ) := by exact_mod_cast (by omega)
    push_cast at hle'
    have htie : y - mant = 1 / 2 := by linarith
    have heven := h.tie (by rw [htie, abs_of_pos (by norm_num)])
    have hmant : (mant : ℚ) + 1 = ((2 ^ (fmt.fracBits + 1) : Nat) : ℚ) := by
      push_cast
      linarith
    have hmant' : mant + 1 = 2 ^ (fmt.fracBits + 1) := by exact_mod_cast hmant
    rw [pow_succ] at hmant'
    omega

/-- The model gives an infinity from `overflowLimit` on (R321(b)). -/
theorem Placed.infinity_iff (hw : fmt.wide) :
    fmt.infinity ≤ p * 2 ^ fmt.fracBits + mant ↔ overflowLimit fmt ≤ x := by
  obtain ⟨-, hmax⟩ := hw
  obtain ⟨top, htop⟩ : ∃ top : Nat, fmt.expMax = top + 2 := ⟨fmt.expMax - 2, by omega⟩
  have hlimit : overflowLimit fmt = ((2 : ℚ) ^ (fmt.fracBits + 1) - 1 / 2) * (2 : ℚ) ^ (fmt.minExp + top) := by
    have hexp : fmt.minExp + (fmt.expMax : Int) - 3 = (fmt.minExp + top) + (-1) := by
      rw [htop]
      push_cast
      ring
    rw [overflowLimit, hexp, zpow_add₀ two_ne_zero, pow_succ 2 (fmt.fracBits + 1)]
    norm_num
    ring
  have hinf : fmt.infinity = top * 2 ^ fmt.fracBits + 2 ^ (fmt.fracBits + 1) := by
    rw [FloatFormat.infinity, htop, pow_succ]
    ring
  have hunit := two_zpow_pos (fmt.minExp + top)
  have hone : (1 : ℚ) ≤ 2 ^ (fmt.fracBits + 1) := one_le_pow₀ one_le_two
  obtain hlt | rfl | hgt := lt_trichotomy p top
  · have hfinite : ¬ fmt.infinity ≤ p * 2 ^ fmt.fracBits + mant := by
      have hle := h.mant_le
      have hmul : (p + 1) * 2 ^ fmt.fracBits ≤ top * 2 ^ fmt.fracBits := Nat.mul_le_mul_right _ hlt
      have hpos : 0 < 2 ^ fmt.fracBits := by positivity
      rw [Nat.add_mul] at hmul
      omega
    have hsmall : x < overflowLimit fmt := by
      rw [h.value, hlimit]
      calc y * (2 : ℚ) ^ (fmt.minExp + p)
          < 2 ^ (fmt.fracBits + 1) * (2 : ℚ) ^ (fmt.minExp + p) := mul_lt_mul_of_pos_right h.below (two_zpow_pos _)
        _ = 2 ^ fmt.fracBits * (2 : ℚ) ^ (fmt.minExp + p + 1) := by
          rw [zpow_add_one₀ two_ne_zero, pow_succ]
          ring
        _ ≤ 2 ^ fmt.fracBits * (2 : ℚ) ^ (fmt.minExp + top) :=
          mul_le_mul_of_nonneg_left (zpow_le_zpow_right₀ one_le_two (by omega)) (by positivity)
        _ ≤ ((2 : ℚ) ^ (fmt.fracBits + 1) - 1 / 2) * (2 : ℚ) ^ (fmt.minExp + top) := by
          have hone' : (1 : ℚ) ≤ 2 ^ fmt.fracBits := one_le_pow₀ one_le_two
          refine mul_le_mul_of_nonneg_right ?_ hunit.le
          rw [pow_succ]
          linarith
    exact iff_of_false hfinite (not_le.2 hsmall)
  · rw [hinf, hlimit, h.value, mul_le_mul_iff_left₀ hunit, ← h.carry_iff, Nat.add_le_add_iff_left]
  · have hinfinite : fmt.infinity ≤ p * 2 ^ fmt.fracBits + mant := by
      have hge : 2 ^ fmt.fracBits ≤ mant := h.mant_ge.resolve_left (by omega)
      have hmul : (top + 1) * 2 ^ fmt.fracBits ≤ p * 2 ^ fmt.fracBits := Nat.mul_le_mul_right _ hgt
      rw [hinf, pow_succ]
      rw [Nat.add_mul] at hmul
      omega
    have hlarge : overflowLimit fmt ≤ x := by
      have hge := h.above.resolve_left (by omega)
      rw [h.value, hlimit]
      calc ((2 : ℚ) ^ (fmt.fracBits + 1) - 1 / 2) * (2 : ℚ) ^ (fmt.minExp + top)
          ≤ 2 ^ (fmt.fracBits + 1) * (2 : ℚ) ^ (fmt.minExp + top) :=
            mul_le_mul_of_nonneg_right (by linarith) hunit.le
        _ = 2 ^ fmt.fracBits * (2 : ℚ) ^ (fmt.minExp + top + 1) := by
          rw [zpow_add_one₀ two_ne_zero, pow_succ]
          ring
        _ ≤ 2 ^ fmt.fracBits * (2 : ℚ) ^ (fmt.minExp + p) :=
          mul_le_mul_of_nonneg_left (zpow_le_zpow_right₀ one_le_two (by omega)) (by positivity)
        _ ≤ y * (2 : ℚ) ^ (fmt.minExp + p) := mul_le_mul_of_nonneg_right hge (two_zpow_pos _).le
    exact iff_of_true hinfinite hlarge

/-- No whole number of units is nearer, and only an even one ties. -/
theorem Placed.nearest_natural (j : Nat) :
    |y - mant| ≤ |y - j| ∧ (|y - mant| = |y - j| → j ≠ mant → mant % 2 = 0) := by
  by_cases hj : j = mant
  · subst hj
    exact ⟨le_rfl, fun _ hne => absurd rfl hne⟩
  · have hapart : (1 : ℚ) ≤ |(mant : ℚ) - j| := by
      have hint : (1 : Int) ≤ |(mant : Int) - j| := Int.one_le_abs (sub_ne_zero.2 (by exact_mod_cast Ne.symm hj))
      exact_mod_cast hint
    have htriangle : |(mant : ℚ) - j| ≤ |y - mant| + |y - j| := by
      rw [abs_sub_comm y mant]
      exact abs_sub_le _ _ _
    have hnear := h.near
    refine ⟨by linarith, fun heq _ => h.tie ?_⟩
    linarith

/-- No number of the format is nearer to `x`, and only an even pattern ties. -/
theorem Placed.nearest_finite {m j : Nat} (hm : m < 2 ^ (fmt.fracBits + 1))
    (hform : z = m * (2 : ℚ) ^ (fmt.minExp + j)) :
    |(mant : ℚ) * (2 : ℚ) ^ (fmt.minExp + p) - x| ≤ |z - x| ∧
      (|(mant : ℚ) * (2 : ℚ) ^ (fmt.minExp + p) - x| = |z - x| → z ≠ mant * (2 : ℚ) ^ (fmt.minExp + p) →
        mant % 2 = 0) := by
  have hunit := two_zpow_pos (fmt.minExp + p)
  have hscale (w : ℚ) : |w * (2 : ℚ) ^ (fmt.minExp + p) - x| = |y - w| * (2 : ℚ) ^ (fmt.minExp + p) := by
    rw [h.value, ← sub_mul, abs_mul, abs_of_pos hunit, abs_sub_comm]
  by_cases hj : p ≤ j
  · have hwhole : z = ((m * 2 ^ (j - p) : Nat) : ℚ) * (2 : ℚ) ^ (fmt.minExp + p) := by
      have hexp : fmt.minExp + (j : Int) = ((j - p : Nat) : Int) + (fmt.minExp + p) := by omega
      rw [hform, hexp, zpow_add₀ two_ne_zero, zpow_natCast]
      push_cast
      ring
    obtain ⟨hle, htie⟩ := h.nearest_natural (m * 2 ^ (j - p))
    rw [hwhole, hscale, hscale]
    refine ⟨mul_le_mul_of_nonneg_right hle hunit.le, fun heq hne => htie (mul_right_cancel₀ hunit.ne' heq) fun hmant => ?_⟩
    exact hne (by rw [hmant])
  · have habove := h.above.resolve_left (by omega)
    have hlow : z < 2 ^ fmt.fracBits * (2 : ℚ) ^ (fmt.minExp + p) := by
      have hm' : (m : ℚ) < 2 ^ (fmt.fracBits + 1) := by exact_mod_cast hm
      calc z = m * (2 : ℚ) ^ (fmt.minExp + j) := hform
        _ < 2 ^ (fmt.fracBits + 1) * (2 : ℚ) ^ (fmt.minExp + j) := mul_lt_mul_of_pos_right hm' (two_zpow_pos _)
        _ = 2 ^ fmt.fracBits * (2 : ℚ) ^ (fmt.minExp + j + 1) := by
          rw [zpow_add_one₀ two_ne_zero, pow_succ]
          ring
        _ ≤ 2 ^ fmt.fracBits * (2 : ℚ) ^ (fmt.minExp + p) :=
          mul_le_mul_of_nonneg_left (zpow_le_zpow_right₀ one_le_two (by omega)) (by positivity)
    have hx : 2 ^ fmt.fracBits * (2 : ℚ) ^ (fmt.minExp + p) ≤ x := by
      rw [h.value]
      exact mul_le_mul_of_nonneg_right habove hunit.le
    obtain ⟨hle, -⟩ := h.nearest_natural (2 ^ fmt.fracBits)
    have hpower := mul_le_mul_of_nonneg_right hle hunit.le
    rw [← hscale, ← hscale] at hpower
    push_cast at hpower
    have hcloser : |2 ^ fmt.fracBits * (2 : ℚ) ^ (fmt.minExp + p) - x| < |z - x| := by
      rw [abs_of_nonpos (by linarith), abs_of_neg (by linarith)]
      linarith
    exact ⟨(hpower.trans_lt hcloser).le, fun heq => absurd heq (hpower.trans_lt hcloser).ne⟩

end Placed

/-! ## The rounded pattern is the nearest (R321(a), (b)) -/

theorem sign_mul_sub (neg : Bool) (v w : ℚ) :
    |(if neg then -1 else 1) * v - (if neg then -1 else 1) * w| = |v - w| := by
  rw [← mul_sub, abs_sign_mul]

theorem withSign_lt (neg : Bool) {magnitude : Nat} (h : magnitude < 2 ^ (fmt.fracBits + fmt.expBits)) :
    fmt.withSign neg magnitude < 2 ^ (fmt.fracBits + fmt.expBits + 1) := by
  rw [pow_succ]
  cases neg
  · simp only [FloatFormat.withSign, Bool.false_eq_true, if_false]
    omega
  · simp only [FloatFormat.withSign, if_true]
    omega

theorem le_withSign_iff (neg : Bool) {magnitude : Nat} (h : magnitude < 2 ^ (fmt.fracBits + fmt.expBits)) :
    2 ^ (fmt.fracBits + fmt.expBits) ≤ fmt.withSign neg magnitude ↔ neg = true := by
  cases neg
  · simpa [FloatFormat.withSign] using h
  · simp [FloatFormat.withSign]

theorem overflowLimit_pos (fmt : FloatFormat) : 0 < overflowLimit fmt := by
  have hone : (1 : ℚ) < 2 ^ (fmt.fracBits + 2) := one_lt_pow₀ one_lt_two (by omega)
  exact mul_pos (by linarith) (two_zpow_pos _)

/-- A zero of either sign is nearest to 0. -/
theorem nearest_zero (hw : fmt.wide) (neg : Bool) : nearest fmt 0 (fmt.withSign neg 0) := by
  refine ⟨withSign_lt neg (by positivity), fun h => absurd rfl h, fun hover => ?_, fun _ => ⟨0, ?_, fun c z hz => ?_⟩⟩
  · have := overflowLimit_pos fmt
    rw [abs_zero] at hover
    linarith
  · rw [valueOf_zero hw, ratOf_fin, signedNumber]
    simp
  · rw [sub_zero, sub_zero, abs_zero]
    exact ⟨abs_nonneg z, fun h0 hne => absurd (abs_eq_zero.1 h0.symm) hne⟩

/-- A number of either sign: its finite pattern is nearer than any other. -/
theorem Placed.nearest_signed (h : Placed fmt x p mant y) (hw : fmt.wide) (hx : 0 < x) (neg : Bool) {c : Nat}
    (hc : ratOf (fmt.valueOf c) = some z) :
    let q : ℚ := (if neg then -1 else 1) * (mant * (2 : ℚ) ^ (fmt.minExp + p))
    let r : ℚ := (if neg then -1 else 1) * x
    |q - r| ≤ |z - r| ∧
      (|q - r| = |z - r| → z ≠ q → fmt.withSign neg (p * 2 ^ fmt.fracBits + mant) % 2 = 0) := by
  intro q r
  obtain ⟨m, j, hm, hform⟩ := finite_form hw hc
  obtain ⟨hfrac, -⟩ := hw
  obtain ⟨hle, htie⟩ := h.nearest_finite hm hform
  have hq : |q - r| = |(mant : ℚ) * (2 : ℚ) ^ (fmt.minExp + p) - x| := sign_mul_sub neg _ x
  have hz : |(|z|) - x| ≤ |z - r| := by
    have hr : x = |r| := by rw [abs_sign_mul, abs_of_pos hx]
    rw [hr]
    exact abs_abs_sub_abs_le z r
  refine ⟨hq ▸ hle.trans hz, fun heq hne => ?_⟩
  have heven : mant % 2 = 0 := by
    by_cases hsame : |z| = mant * (2 : ℚ) ^ (fmt.minExp + p)
    · have habs : |z| = |q| := by
        rw [abs_sign_mul, hsame, abs_of_nonneg (by positivity)]
      obtain rfl | hopp := abs_eq_abs.1 habs
      · exact absurd rfl hne
      · have hsum : |(mant : ℚ) * (2 : ℚ) ^ (fmt.minExp + p) - x| = mant * (2 : ℚ) ^ (fmt.minExp + p) + x := by
          rw [← hq, heq, hopp, ← neg_add', abs_neg, ← mul_add, abs_sign_mul, abs_of_pos (by positivity)]
        have hzero : (mant : ℚ) * (2 : ℚ) ^ (fmt.minExp + p) = 0 := by
          have hnonneg : 0 ≤ (mant : ℚ) * (2 : ℚ) ^ (fmt.minExp + p) := by positivity
          obtain hcase | hcase := abs_cases ((mant : ℚ) * (2 : ℚ) ^ (fmt.minExp + p) - x) <;> linarith [hcase.1]
        have hmant : (mant : ℚ) = 0 := (mul_eq_zero.1 hzero).resolve_right (two_zpow_pos _).ne'
        have hmant' : mant = 0 := by exact_mod_cast hmant
        rw [hmant']
    · exact htie (le_antisymm hle (hz.trans (heq ▸ hq.le))) hsame
  have hunit : 2 ^ fmt.fracBits % 2 = 0 := Nat.mod_eq_zero_of_dvd (dvd_pow_self 2 (by omega))
  have hsign : 2 ^ (fmt.fracBits + fmt.expBits) % 2 = 0 := Nat.mod_eq_zero_of_dvd (dvd_pow_self 2 (by omega))
  have hmul : p * 2 ^ fmt.fracBits % 2 = 0 := by rw [Nat.mul_mod, hunit, Nat.mul_zero, Nat.zero_mod]
  cases neg
  · simp only [FloatFormat.withSign, Bool.false_eq_true, if_false]
    omega
  · simp only [FloatFormat.withSign, if_true]
    omega

/-- The model's rounding is the nearest pattern, whatever the number. -/
theorem round_nearest (hw : fmt.wide) (neg : Bool) (num : Nat) (hden : 0 < den) (exp : Int) :
    nearest fmt ((if neg then -1 else 1) * ((num : ℚ) / den * (2 : ℚ) ^ exp)) (fmt.round neg num den exp) := by
  obtain rfl | hnum := Nat.eq_zero_or_pos num
  · have hzero : fmt.round neg 0 den exp = fmt.withSign neg 0 := rfl
    rw [hzero]
    simpa using nearest_zero hw neg
  obtain ⟨p, mant, y, h, hround⟩ := roundMagnitude_placed fmt hnum hden exp
  have hx : 0 < (num : ℚ) / den * (2 : ℚ) ^ exp := by positivity
  have hneg : (if neg then (-1 : ℚ) else 1) * ((num : ℚ) / den * (2 : ℚ) ^ exp) < 0 ↔ neg = true := by
    cases neg
    · simpa using hx.le
    · simpa using hx
  have hmag : fmt.roundMagnitude num den exp < 2 ^ (fmt.fracBits + fmt.expBits) := by
    rw [hround]
    have := infinity_lt fmt
    split_ifs <;> omega
  refine ⟨withSign_lt neg hmag, fun _ => (le_withSign_iff neg hmag).trans hneg.symm, fun hover => ?_, fun hfits => ?_⟩
  · rw [abs_sign_mul, abs_of_pos hx, ← h.infinity_iff hw] at hover
    rw [FloatFormat.round, hround, if_pos hover, valueOf_infinity]
    congr 1
    rw [Bool.eq_iff_iff, decide_eq_true_iff, hneg]
  · rw [abs_sign_mul, abs_of_pos hx, ← not_le, ← h.infinity_iff hw] at hfits
    obtain ⟨m, e, hvalue, hnumber⟩ := h.valueOf_eq hw neg (not_le.1 hfits)
    rw [FloatFormat.round, hround, if_neg hfits]
    refine ⟨_, ?_, fun c z hc => h.nearest_signed hw hx neg hc⟩
    rw [hvalue, ratOf_fin, signedNumber, mul_assoc, hnumber]

/-! ## Sums, differences, products, quotients, conversions -/

theorem signedNumber_not (a : Bool) (m : Nat) (e : Int) : signedNumber (!a) m e = -signedNumber a m e := by
  cases a <;> simp [signedNumber]

/-- The sum of two numbers, in units of the lesser scale. -/
theorem sum_eq (a b : Bool) (m n : Nat) (e f : Int) :
    ((scaledInt a m e (min e f) + scaledInt b n f (min e f) : Int) : ℚ) * (2 : ℚ) ^ min e f =
      signedNumber a m e + signedNumber b n f := by
  rw [Int.cast_add, add_mul, scaledInt_mul a m (min_le_left e f), scaledInt_mul b n (min_le_right e f)]

/-- An integer as a sign and a magnitude. -/
theorem intCast_eq_sign (n : Int) : (n : ℚ) = (if decide (n < 0) then -1 else 1) * (n.natAbs : ℚ) := by
  have hcast : (n.natAbs : ℚ) = ((|n| : Int) : ℚ) := by
    rw [Int.abs_eq_natAbs]
    rfl
  rw [hcast]
  by_cases h : n < 0
  · simp [h, abs_of_neg h]
  · simp [h, abs_of_nonneg (not_lt.1 h)]

theorem addValues_nearest (hw : fmt.wide) (a b : Bool) (m n : Nat) (e f : Int) :
    ∃ bits, addValues fmt (.fin a m e) (.fin b n f) = some bits ∧
      nearest fmt (signedNumber a m e + signedNumber b n f) bits := by
  have hsum := sum_eq a b m n e f
  simp only [addValues]
  split_ifs with hzero
  · rw [hzero, Int.cast_zero, zero_mul] at hsum
    exact ⟨_, rfl, hsum ▸ nearest_zero hw _⟩
  · refine ⟨_, rfl, ?_⟩
    have hround := round_nearest hw (decide (scaledInt a m e (min e f) + scaledInt b n f (min e f) < 0))
      (scaledInt a m e (min e f) + scaledInt b n f (min e f)).natAbs Nat.one_pos (min e f)
    rwa [Nat.cast_one, div_one, ← mul_assoc, ← intCast_eq_sign, hsum] at hround

theorem sign_xor (a b : Bool) :
    (if (a != b) = true then (-1 : ℚ) else 1) = (if a then -1 else 1) * (if b then -1 else 1) := by
  cases a <;> cases b <;> norm_num

theorem mulValues_nearest (hw : fmt.wide) (a b : Bool) (m n : Nat) (e f : Int) :
    ∃ bits, mulValues fmt (.fin a m e) (.fin b n f) = some bits ∧
      nearest fmt (signedNumber a m e * signedNumber b n f) bits := by
  refine ⟨_, rfl, ?_⟩
  have hround := round_nearest hw (a != b) (m * n) Nat.one_pos (e + f)
  have hproduct : signedNumber a m e * signedNumber b n f =
      (if (a != b) = true then -1 else 1) * (((m * n : Nat) : ℚ) / (1 : Nat) * (2 : ℚ) ^ (e + f)) := by
    rw [sign_xor, zpow_add₀ two_ne_zero, signedNumber, signedNumber]
    push_cast
    ring
  rwa [hproduct]

theorem divValues_nearest (hw : fmt.wide) (a b : Bool) (m : Nat) {n : Nat} (hn : n ≠ 0) (e f : Int) :
    ∃ bits, divValues fmt (.fin a m e) (.fin b n f) = some bits ∧
      nearest fmt (signedNumber a m e / signedNumber b n f) bits := by
  refine ⟨_, if_neg hn, ?_⟩
  have hround := round_nearest hw (a != b) m (Nat.pos_of_ne_zero hn) (e - f)
  have hquotient : signedNumber a m e / signedNumber b n f =
      (if (a != b) = true then -1 else 1) * ((m : ℚ) / n * (2 : ℚ) ^ (e - f)) := by
    have hsign : (if b then (-1 : ℚ) else 1)⁻¹ = if b then -1 else 1 := by cases b <;> norm_num
    rw [sign_xor, zpow_sub₀ two_ne_zero, signedNumber, signedNumber, div_eq_mul_inv, mul_inv, mul_inv, hsign]
    ring
  rwa [hquotient]

theorem arithValues_nearest (hw : fmt.wide) (op : FloatOp) {v w : FloatValue} (hv : ratOf v = some x) (hw' : ratOf w = some y)
    (hdiv : op = .div → y ≠ 0) : ∃ bits, arithValues fmt op v w = some bits ∧ nearest fmt (exactly op x y) bits := by
  obtain ⟨a, m, e, rfl, rfl⟩ := ratOf_some hv
  obtain ⟨b, n, f, rfl, rfl⟩ := ratOf_some hw'
  cases op
  case add => exact addValues_nearest hw a b m n e f
  case sub =>
    rw [exactly, sub_eq_add_neg, ← signedNumber_not]
    exact addValues_nearest hw a (!b) m n e f
  case mul => exact mulValues_nearest hw a b m n e f
  case div =>
    refine divValues_nearest hw a b m (fun h0 => hdiv rfl ?_) e f
    simp [h0, signedNumber]

theorem convertBits_nearest (hw : fmt.wide) {source : FloatFormat} (hx : ratOf (source.valueOf bits) = some x) :
    ∃ b, convertBits source fmt bits = some b ∧ nearest fmt x b := by
  obtain ⟨a, m, e, hvalue, rfl⟩ := ratOf_some hx
  have hround := round_nearest hw a m Nat.one_pos e
  rw [Nat.cast_one, div_one, ← mul_assoc] at hround
  exact ⟨_, by rw [convertBits, hvalue], hround⟩

theorem integerBits_nearest (hw : fmt.wide) (n : Int) : nearest fmt (n : ℚ) (integerBits fmt n) := by
  have hround := round_nearest hw (decide (n < 0)) n.natAbs Nat.one_pos 0
  rwa [Nat.cast_one, div_one, zpow_zero, mul_one, ← intCast_eq_sign] at hround

/-- Settles O38: each result is the model's rounding of the exact one. -/
theorem floatResultsAreNearest : Obligations.FloatResultsAreNearest := by
  intro fmt hfmt
  have hw := wide_of_format hfmt
  exact ⟨fun op x y p q hp hq hdiv => arithValues_nearest hw op hp hq hdiv,
    fun source x p _ hx => convertBits_nearest hw hx, fun v => integerBits_nearest hw v.toInt⟩

end Sys2Proof.Machine
end

section
/-! Exact and special results of the default `FP` (48_floating_point.md R321(a), (c) to (e)): a number the format holds is
its own rounding; NaNs, infinities and zeros come before any rounding. -/

namespace Sys2Proof.Machine

open Sys2Proof.Claims

variable {s : State} {fmt : FloatFormat} {bits m : Nat} {e : Int} {r : ℚ} {v : FloatValue}

/-! ## Numbers a format holds -/

/-- A significand of the format's width, at one of its places, is the number of a pattern: shifted up until it fills its
width or its place is the least. -/
theorem exists_pattern (hw : fmt.wide) (neg : Bool) {k : Nat} (hm : m < 2 ^ (fmt.fracBits + 1))
    (hk : k + 2 ≤ fmt.expMax) : ∃ c, ratOf (fmt.valueOf c) = some (signedNumber neg m (fmt.minExp + k)) := by
  induction k generalizing m with
  | zero =>
    by_cases hsub : m < 2 ^ fmt.fracBits
    · exact ⟨_, by rw [valueOf_subnormal hw neg hsub, ratOf_fin, Nat.cast_zero, add_zero]⟩
    · exact ⟨_, congrArg ratOf (valueOf_normal neg (by omega) (by omega) hm)⟩
  | succ k ih =>
    by_cases hsub : m < 2 ^ fmt.fracBits
    · obtain ⟨c, hc⟩ := ih (m := 2 * m) (by rw [pow_succ]; omega) (by omega)
      refine ⟨c, hc.trans (congrArg some ?_)⟩
      have hexp : fmt.minExp + ((k + 1 : Nat) : Int) = fmt.minExp + k + 1 := by
        push_cast
        ring
      rw [signedNumber, signedNumber, hexp, zpow_add_one₀ two_ne_zero]
      push_cast
      ring
    · exact ⟨_, congrArg ratOf (valueOf_normal neg (by omega) (by omega) hm)⟩

/-- Such a number is below the limit from which results are infinite. -/
theorem lt_overflowLimit (neg : Bool) {k : Nat} (hm : m < 2 ^ (fmt.fracBits + 1)) (hk : k + 2 ≤ fmt.expMax) :
    |signedNumber neg m (fmt.minExp + k)| < overflowLimit fmt := by
  have hm' : (m : ℚ) + 1 ≤ 2 ^ (fmt.fracBits + 1) := by exact_mod_cast hm
  have hlimit : overflowLimit fmt =
      ((2 : ℚ) ^ (fmt.fracBits + 1) - 1 / 2) * (2 : ℚ) ^ (fmt.minExp + (fmt.expMax : Int) - 3 + 1) := by
    rw [overflowLimit, zpow_add_one₀ two_ne_zero, pow_succ 2 (fmt.fracBits + 1)]
    ring
  rw [abs_signedNumber, hlimit]
  calc (m : ℚ) * (2 : ℚ) ^ (fmt.minExp + k)
      ≤ m * (2 : ℚ) ^ (fmt.minExp + (fmt.expMax : Int) - 3 + 1) :=
        mul_le_mul_of_nonneg_left (zpow_le_zpow_right₀ one_le_two (by omega)) (Nat.cast_nonneg m)
    _ < ((2 : ℚ) ^ (fmt.fracBits + 1) - 1 / 2) * (2 : ℚ) ^ (fmt.minExp + (fmt.expMax : Int) - 3 + 1) :=
        mul_lt_mul_of_pos_right (by linarith) (two_zpow_pos _)

/-- The pattern nearest to a number the format holds has that number. -/
theorem nearest_exact (hw : fmt.wide) (neg : Bool) {k : Nat} (hm : m < 2 ^ (fmt.fracBits + 1)) (hk : k + 2 ≤ fmt.expMax)
    (h : nearest fmt (signedNumber neg m (fmt.minExp + k)) bits) :
    ratOf (fmt.valueOf bits) = some (signedNumber neg m (fmt.minExp + k)) := by
  obtain ⟨-, -, -, hfinite⟩ := h
  obtain ⟨q, hq, hnear⟩ := hfinite (lt_overflowLimit neg hm hk)
  obtain ⟨c, hc⟩ := exists_pattern hw neg hm hk
  obtain ⟨hle, -⟩ := hnear c _ hc
  rw [sub_self, abs_zero] at hle
  rw [hq, sub_eq_zero.1 (abs_nonpos_iff.1 hle)]

/-! ## Widening conversions -/

theorem convertBits_exact {c b : Nat} (h : convertBits single double c = some b) :
    numberOf (double.valueOf b) = numberOf (single.valueOf c) := by
  have hw : double.wide := wide_of_format (.inr rfl)
  cases hvalue : single.valueOf c with
  | nan =>
    rw [convertBits, hvalue] at h
    cases h
  | inf a =>
    rw [convertBits, hvalue] at h
    cases h
    rw [valueOf_infinity]
  | fin neg m e =>
    obtain ⟨hm, j, rfl, hj⟩ := fin_form (wide_of_format (.inl rfl)) hvalue
    have hplace : single.minExp + (j : Int) = double.minExp + ((925 + j : Nat) : Int) := by
      have hmin : single.minExp = double.minExp + 925 := by decide
      rw [hmin]
      push_cast
      ring
    have hsingle : single.expMax = 255 := by decide
    have hdouble : double.expMax = 2047 := by decide
    obtain ⟨b', hb', hnear⟩ := convertBits_nearest hw (congrArg ratOf hvalue)
    cases h.symm.trans hb'
    rw [hplace] at hnear
    have hexact := nearest_exact hw neg (hm.trans (by norm_num [single, double])) (by omega) hnear
    obtain ⟨a', m', e', hb, hnumber⟩ := ratOf_some hexact
    rw [hb, numberOf_fin, numberOf_fin, ← hnumber, hplace]

/-- An integer of a word is a double. -/
theorem integerBits_exact (v : Word) : ratOf (double.valueOf (integerBits double v.toInt)) = some (v.toInt : ℚ) := by
  have hw : double.wide := wide_of_format (.inr rfl)
  obtain ⟨hlow, hhigh⟩ := toInt_range v
  have hmin : double.minExp = -1074 := by decide
  have hmax : double.expMax = 2047 := by decide
  have hform : (v.toInt : ℚ) = signedNumber (decide (v.toInt < 0)) v.toInt.natAbs (double.minExp + (1074 : Nat)) := by
    have hexp : double.minExp + ((1074 : Nat) : Int) = 0 := by rw [hmin]; rfl
    rw [hexp, signedNumber, zpow_zero, mul_one, ← intCast_eq_sign]
  have hnear := integerBits_nearest hw v.toInt
  rw [hform] at hnear
  have hwidth : (2 : Nat) ^ (double.fracBits + 1) = 9007199254740992 := by norm_num [double]
  have hexact := nearest_exact hw _ (by omega) (by omega) hnear
  rw [hexact, ← hform]

/-- An integer converted to double and back: both steps are exact, so both complete with it. -/
theorem integer_roundTrip {fd fs gd : Reg} (hfd : fd.toNat % 2 = 0) (hfs : fs.toNat % 2 = 0) (hgd : gd.toNat % 2 = 0)
    (hfp : s.cfg.fp = .ieee754) :
    ∃ t u, exec (.cvtDW fd fs) s = .next t ∧ exec (.cvtWD gd fd) t = .next u ∧ u.readSingle gd = s.readSingle fs ∧
      u.draws = s.draws := by
  obtain ⟨hdefault, -⟩ := floatConversionResults s fd fs hfd hfs
  obtain ⟨-, -, ⟨t, ht, hread, -, -, hdraws⟩, -⟩ := hdefault hfp
  obtain ⟨hlt, -⟩ := integerBits_nearest (wide_of_format (.inr rfl)) (s.readSingle fs).toInt
  have hbits : (t.readDouble fd).toNat = integerBits double (s.readSingle fs).toInt := by
    have hlt' : integerBits double (s.readSingle fs).toInt < 2 ^ 64 := hlt
    rw [hread, BitVec.toNat_ofNat, Nat.mod_eq_of_lt hlt']
  obtain ⟨hlow, hhigh⟩ := toInt_range (s.readSingle fs)
  obtain ⟨hback, -⟩ := conversionToInteger (.cvtWD gd fd) t gd _ rfl (allEven_of_pair rfl hgd hfd)
  obtain ⟨u, hu, hresult, -, -, hdraws'⟩ :=
    hback (s.readSingle fs).toInt (by rw [hbits]; exact integerBits_exact _) hlow hhigh
  refine ⟨t, u, ht, hu, ?_, hdraws'.trans hdraws⟩
  rw [hresult, BitVec.ofInt_toInt]

/-- Settles O43: the double nearest to a single or to an integer is that number. -/
theorem wideningIsExact : Obligations.WideningIsExact :=
  ⟨fun _ _ => convertBits_exact, integerBits_exact, fun _ _ _ _ => integer_roundTrip⟩

/-! ## Results that are not rounded (R321(c) to (e)) -/

/-- The pattern of a special result: none of a NaN, an infinity, or a zero. -/
def specialBits (fmt : FloatFormat) (v : FloatValue) : Option Nat :=
  match v with
  | .nan => none
  | .inf neg => some (fmt.withSign neg fmt.infinity)
  | .fin neg _ _ => some (fmt.withSign neg 0)

/-- A sum is 0 where one number is the other's negative. -/
theorem scaledSum_eq_zero {a b : Bool} {m n : Nat} {e f : Int} (h : signedNumber a m e = signedNumber (!b) n f) :
    scaledInt a m e (min e f) + scaledInt b n f (min e f) = 0 := by
  have hsum := sum_eq a b m n e f
  rw [h, signedNumber_not, neg_add_cancel] at hsum
  exact_mod_cast (mul_eq_zero.1 hsum).resolve_right (two_zpow_pos _).ne'

theorem addValues_special {x y : FloatValue} (h : specialResult .add x y = some v) :
    addValues fmt x y = specialBits fmt v := by
  cases x with
  | nan => cases h; rfl
  | inf a =>
    cases y with
    | nan => cases h; rfl
    | inf b => cases a <;> cases b <;> cases h <;> rfl
    | fin b n f => cases h; rfl
  | fin a m e =>
    cases y with
    | nan => cases h; rfl
    | inf b => cases h; rfl
    | fin b n f =>
      dsimp only [specialResult] at h
      split_ifs at h with heq
      cases h
      rw [ratOf_fin, ratOf_fin, Option.some.injEq] at heq
      simp only [addValues]
      rw [if_pos (scaledSum_eq_zero heq)]
      rfl

/-- A difference is the sum with the other sign. -/
theorem specialResult_sub (x y : FloatValue) : specialResult .sub x y = specialResult .add x (negateValue y) := by
  cases x with
  | nan => rfl
  | inf a =>
    cases y with
    | nan => rfl
    | inf b => cases a <;> cases b <;> rfl
    | fin b n f => rfl
  | fin a m e =>
    cases y with
    | nan => rfl
    | inf b => rfl
    | fin b n f => simp [specialResult, negateValue]

theorem mulValues_special {x y : FloatValue} (h : specialResult .mul x y = some v) :
    mulValues fmt x y = specialBits fmt v := by
  cases x with
  | nan => cases h; rfl
  | inf a =>
    cases y with
    | nan => cases h; rfl
    | inf b => cases h; rfl
    | fin b n f =>
      cases h
      simp only [mulValues]
      split <;> rfl
  | fin a m e =>
    cases y with
    | nan => cases h; rfl
    | inf b =>
      cases h
      simp only [mulValues]
      split <;> rfl
    | fin b n f =>
      dsimp only [specialResult] at h
      split_ifs at h with hzero
      cases h
      rw [mulValues, Nat.mul_eq_zero.2 hzero]
      rfl

theorem divValues_special {x y : FloatValue} (h : specialResult .div x y = some v) :
    divValues fmt x y = specialBits fmt v := by
  cases x with
  | nan => cases h; rfl
  | inf a => cases y <;> cases h <;> rfl
  | fin a m e =>
    cases y with
    | nan => cases h; rfl
    | inf b => cases h; rfl
    | fin b n f =>
      dsimp only [specialResult] at h
      simp only [divValues]
      split_ifs at h ⊢ with hn hm hm
      · cases h; rfl
      · cases h; rfl
      · cases h
        rw [hm]
        rfl

theorem arithValues_special {op : FloatOp} {x y : FloatValue} (h : specialResult op x y = some v) :
    arithValues fmt op x y = specialBits fmt v := by
  cases op
  case add => exact addValues_special h
  case sub => exact addValues_special ((specialResult_sub x y).symm.trans h)
  case mul => exact mulValues_special h
  case div => exact divValues_special h

/-- Settles O39: the special results come before any rounding, and their patterns have their values. -/
theorem floatSpecialResults : Obligations.FloatSpecialResults := by
  intro fmt op x y v hfmt h
  have hbits : arithBits fmt op x y = specialBits fmt v := arithValues_special h
  cases v with
  | nan => exact hbits
  | inf neg => exact ⟨_, hbits, valueOf_infinity neg⟩
  | fin neg m e => exact ⟨_, hbits, valueOf_zero (wide_of_format hfmt) neg⟩

end Sys2Proof.Machine
end
